-- ==== Sys2Proof/Word.lean ====
section
/-!
DEFINITION. The word types of the core (00_scope.md R9, R12).
-/

namespace Sys2Proof

/-- A register, operand or result: 32 bits, unsigned (00_scope.md R12). -/
abbrev Word := BitVec 32

/-- A halfword of the fetch window (30_encoding.md R71). -/
abbrev Halfword := BitVec 16

/-- One byte of memory (20_memory.md R50). -/
abbrev Byte := BitVec 8

/-- A set of interrupt lines, one bit a line (10_state.md R33, R34). -/
abbrev Lines := BitVec 16

end Sys2Proof
end

