-- ==== Sys2Proof/Config.lean ====
section
/-!
DEFINITION. What an implementation fixes (00_scope.md R9) and the free values (00_scope.md R17).
The switches carry the alternatives the spec offers. The OPEN values are opaque constants.
-/

namespace Sys2Proof

namespace Config

/-- BYTE_ORDER (20_memory.md R58, D2). -/
inductive ByteOrder where
  | little
  | big
deriving DecidableEq, Repr

/-- OOB_POLICY (20_memory.md R55, D4). -/
inductive OobPolicy where
  | stop
  | wrap
deriving DecidableEq, Repr

/-- SHIFT_POLICY (43_alu.md R150, D7). -/
inductive ShiftPolicy where
  | mask31
  | saturate
deriving DecidableEq, Repr

/-- STORE_REG_MODE (10_state.md R29, D8). -/
inductive StoreRegMode where
  | sticky
  | strict
deriving DecidableEq, Repr

/-- OP_0D_MODE (42_flow_control.md R125, D10). -/
inductive Op0dMode where
  | readMask
  | readPending
deriving DecidableEq, Repr

/-- OP_0F_MODE (42_flow_control.md R127, D11). -/
inductive Op0fMode where
  | aluFault
  | flowNop
deriving DecidableEq, Repr

/-- WFI_MODE (44_cycle.md R178, D12). -/
inductive WfiMode where
  | advance
  | freeze
deriving DecidableEq, Repr

/-- DISPATCH_SP_MODE (60_exceptions.md R196, D13). -/
inductive DispatchSpMode where
  | decrement
  | increment
deriving DecidableEq, Repr

/-- EXT_IRQ (60_exceptions.md R198, D21). -/
inductive ExtIrq where
  | absent
  | present
deriving DecidableEq, Repr

/-- The parameters of 00_scope.md R9. FIELD_LAYOUT and LOAD_EXT have no alternative and are built
into the decoder and the loads. IRQ_VECTOR is a value in 0..0xFFFC (D17), by its type. -/
structure Params where
  stackBase      : Word
  irqVector      : Fin 65533
  hwWindowBase   : Word
  byteOrder      : ByteOrder
  oobPolicy      : OobPolicy
  shiftPolicy    : ShiftPolicy
  storeRegMode   : StoreRegMode
  op0dMode       : Op0dMode
  op0fMode       : Op0fMode
  wfiMode        : WfiMode
  dispatchSpMode : DispatchSpMode
  extIrq         : ExtIrq
deriving DecidableEq, Repr

/-- MEM_SIZE (00_scope.md R9). -/
abbrev memSize : Nat := 65536

/-- NIRQ (00_scope.md R9). -/
abbrev irqLines : Nat := 16

/-- STACK_BASE: OPEN, any 32-bit value (D16). DESIGN CHOICE, log entry 2. -/
opaque stackBase : Word

/-- IRQ_VECTOR: OPEN, a value in 0..0xFFFC (D17). DESIGN CHOICE, log entry 2. -/
opaque irqVector : Fin 65533

/-- HW_WINDOW_BASE: OPEN, and no rule reads it (D18). DESIGN CHOICE, log entry 2. -/
opaque hwWindowBase : Word

/-- The n-th free value `unspec32` of a run (00_scope.md R17). It has no body: a claim holds for
every value. DESIGN CHOICE, log entry 3. -/
opaque unspec : Nat → Word

/-- The parameters the machine has at reset: the spec's default of every switch (00_scope.md R9). -/
def defaults : Params where
  stackBase      := stackBase
  irqVector      := irqVector
  hwWindowBase   := hwWindowBase
  byteOrder      := .little
  oobPolicy      := .stop
  shiftPolicy    := .mask31
  storeRegMode   := .sticky
  op0dMode       := .readMask
  op0fMode       := .aluFault
  wfiMode        := .advance
  dispatchSpMode := .decrement
  extIrq         := .absent

end Config

end Sys2Proof
end

