-- ==== Sys2Proof/Syntax.lean ====
section
/-!
DEFINITION. The abstract syntax: register names, the four forms of operand 2, and one constructor per
row of spec/opcode_table.json. Every row has the fields rd and ra and an operand 2 (30_encoding.md R74,
R85): a field an operation does not use is still part of the instruction (R87).
-/

namespace Sys2Proof

/-- The eight register slots in index order (10_state.md R20). -/
inductive Reg where
  | r0 | r1 | r2 | r3 | r4 | r5 | sp | pc
deriving DecidableEq, Repr

/-- Operand 2 by addressing mode. An immediate is held as the signed number of R78's table (short) or of
R79's sign extension (long). The `rb` of modes 10 and 11 is decoded and not used (R79, R80). -/
inductive Operand2 where
  /-- mode 00: the register rb (30_encoding.md R77) -/
  | reg (rb : Reg)
  /-- mode 01: the signed number -4..3 in the rb field (R78) -/
  | short (n : Int)
  /-- mode 10: the signed number -32768..32767 in imm16 (R79) -/
  | long (rb : BitVec 3) (n : Int)
  /-- mode 11: the invalid mode (R80) -/
  | invalid (rb : BitVec 3)
deriving DecidableEq, Repr

/-- The instructions, one constructor per row of spec/opcode_table.json (30_encoding.md R84). -/
inductive Instr where
  /-- LDB (R101) -/
  | ldb (rd ra : Reg) (o : Operand2)
  /-- LDH (R102) -/
  | ldh (rd ra : Reg) (o : Operand2)
  /-- LDW (R103) -/
  | ldw (rd ra : Reg) (o : Operand2)
  /-- STB (R104) -/
  | stb (rd ra : Reg) (o : Operand2)
  /-- STH (R105) -/
  | sth (rd ra : Reg) (o : Operand2)
  /-- STW (R106) -/
  | stw (rd ra : Reg) (o : Operand2)
  /-- PUSH (R107) -/
  | push (rd ra : Reg) (o : Operand2)
  /-- POP (R108) -/
  | pop (rd ra : Reg) (o : Operand2)
  /-- BNZ (R120) -/
  | bnz (rd ra : Reg) (o : Operand2)
  /-- WFI (R121) -/
  | wfi (rd ra : Reg) (o : Operand2)
  /-- MSKW (R122) -/
  | mskw (rd ra : Reg) (o : Operand2)
  /-- MSKR (R123) -/
  | mskr (rd ra : Reg) (o : Operand2)
  /-- PNDW (R124) -/
  | pndw (rd ra : Reg) (o : Operand2)
  /-- PNDR (R125) -/
  | pndr (rd ra : Reg) (o : Operand2)
  /-- HALT (R126) -/
  | halt (rd ra : Reg) (o : Operand2)
  /-- INVALID_0F (R127) -/
  | invalid0f (rd ra : Reg) (o : Operand2)
  /-- ADC (R140) -/
  | adc (rd ra : Reg) (o : Operand2)
  /-- SBC (R141) -/
  | sbc (rd ra : Reg) (o : Operand2)
  /-- CMP (R142) -/
  | cmp (rd ra : Reg) (o : Operand2)
  /-- AND (R143) -/
  | land (rd ra : Reg) (o : Operand2)
  /-- OR (R144) -/
  | lor (rd ra : Reg) (o : Operand2)
  /-- NOT (R145) -/
  | lnot (rd ra : Reg) (o : Operand2)
  /-- LSR (R146) -/
  | lsr (rd ra : Reg) (o : Operand2)
  /-- LSL (R147) -/
  | lsl (rd ra : Reg) (o : Operand2)
  /-- ASR (R148) -/
  | asr (rd ra : Reg) (o : Operand2)
  /-- ROR (R149) -/
  | ror (rd ra : Reg) (o : Operand2)
  /-- INVALID_1A (R156) -/
  | invalid1a (rd ra : Reg) (o : Operand2)
  /-- INVALID_1B (R156) -/
  | invalid1b (rd ra : Reg) (o : Operand2)
  /-- INVALID_1C (R156) -/
  | invalid1c (rd ra : Reg) (o : Operand2)
  /-- INVALID_1D (R156) -/
  | invalid1d (rd ra : Reg) (o : Operand2)
  /-- INVALID_1E (R156) -/
  | invalid1e (rd ra : Reg) (o : Operand2)
  /-- INVALID_1F (R156) -/
  | invalid1f (rd ra : Reg) (o : Operand2)
deriving DecidableEq, Repr

/-- The addressing mode is 10: the instruction is 4 bytes long (30_encoding.md R70). -/
def Operand2.isLong : Operand2 → Bool
  | .reg _     => false
  | .short _   => false
  | .long _ _  => true
  | .invalid _ => false

/-- The addressing mode is 11 (30_encoding.md R80). -/
def Operand2.isInvalid : Operand2 → Bool
  | .reg _     => false
  | .short _   => false
  | .long _ _  => false
  | .invalid _ => true

end Sys2Proof
end

