-- ==== Sys2Proof/WellFormed.lean ====
section
/-!
DEFINITION. When a term is an instruction the encoding can write: an immediate is in the range its field
holds (30_encoding.md R78, R79). Every register field and every opcode takes every value (R85), so no
other check is needed.
-/

namespace Sys2Proof

/-- The immediate of an operand 2 fits its field: 3 bits signed (R78), 16 bits signed (R79). -/
def Operand2.wellFormed : Operand2 → Bool
  | .reg _     => true
  | .short n   => decide (-4 ≤ n) && decide (n ≤ 3)
  | .long _ n  => decide (-32768 ≤ n) && decide (n ≤ 32767)
  | .invalid _ => true

/-- An instruction is well-formed when its operand 2 is. -/
def Instr.wellFormed : Instr → Bool
  | .ldb _ _ o => o.wellFormed
  | .ldh _ _ o => o.wellFormed
  | .ldw _ _ o => o.wellFormed
  | .stb _ _ o => o.wellFormed
  | .sth _ _ o => o.wellFormed
  | .stw _ _ o => o.wellFormed
  | .push _ _ o => o.wellFormed
  | .pop _ _ o => o.wellFormed
  | .bnz _ _ o => o.wellFormed
  | .wfi _ _ o => o.wellFormed
  | .mskw _ _ o => o.wellFormed
  | .mskr _ _ o => o.wellFormed
  | .pndw _ _ o => o.wellFormed
  | .pndr _ _ o => o.wellFormed
  | .halt _ _ o => o.wellFormed
  | .invalid0f _ _ o => o.wellFormed
  | .adc _ _ o => o.wellFormed
  | .sbc _ _ o => o.wellFormed
  | .cmp _ _ o => o.wellFormed
  | .land _ _ o => o.wellFormed
  | .lor _ _ o => o.wellFormed
  | .lnot _ _ o => o.wellFormed
  | .lsr _ _ o => o.wellFormed
  | .lsl _ _ o => o.wellFormed
  | .asr _ _ o => o.wellFormed
  | .ror _ _ o => o.wellFormed
  | .invalid1a _ _ o => o.wellFormed
  | .invalid1b _ _ o => o.wellFormed
  | .invalid1c _ _ o => o.wellFormed
  | .invalid1d _ _ o => o.wellFormed
  | .invalid1e _ _ o => o.wellFormed
  | .invalid1f _ _ o => o.wellFormed

end Sys2Proof
end

