-- ==== Sys2Proof/Decode.lean ====
section
/-!
DEFINITION. The encoding of 30_encoding.md: byte order of a halfword, field extraction, the opcode map,
the decoder (total: every window decodes, R85; a byte list that is too short is rejected by name), and the
encoder, written from the same tables.
-/

namespace Sys2Proof

open Config

/-! ### Byte order (20_memory.md R58), decided once for data and for the fetch -/

/-- The bytes of a value in the order of their significance, least significant first, from the bytes in
address order; and the other way round (the map is its own inverse). -/
def orderBytes (o : ByteOrder) (bytes : List Byte) : List Byte :=
  match o with
  | .little => bytes
  | .big    => bytes.reverse

/-- The number whose bytes, least significant first, are given. -/
def assemble : List Byte → Nat
  | []      => 0
  | b :: bs => b.toNat + 256 * assemble bs

/-- The low n bytes of a number, least significant first. -/
def splitBytes : Nat → Nat → List Byte
  | 0,     _ => []
  | n + 1, v => BitVec.ofNat 8 v :: splitBytes n (v / 256)

/-- The n-byte value at bytes given in address order. -/
def valueOfBytes (o : ByteOrder) (bytes : List Byte) : Nat :=
  assemble (orderBytes o bytes)

/-- The n bytes of a value, in address order. -/
def bytesOfValue (o : ByteOrder) (n v : Nat) : List Byte :=
  orderBytes o (splitBytes n v)

/-- The halfword at two bytes given in address order (30_encoding.md R71). -/
def halfword (o : ByteOrder) (b0 b1 : Byte) : Halfword :=
  BitVec.ofNat 16 (valueOfBytes o [b0, b1])

/-! ### Register indices (10_state.md R20) -/

/-- The slot a 3-bit index names. -/
def regOfBits (b : BitVec 3) : Reg :=
  match b.toNat with
  | 0 => .r0
  | 1 => .r1
  | 2 => .r2
  | 3 => .r3
  | 4 => .r4
  | 5 => .r5
  | 6 => .sp
  | _ => .pc

/-- The 3-bit index of a slot. -/
def bitsOfReg : Reg → BitVec 3
  | .r0 => 0#3
  | .r1 => 1#3
  | .r2 => 2#3
  | .r3 => 3#3
  | .r4 => 4#3
  | .r5 => 5#3
  | .sp => 6#3
  | .pc => 7#3

/-! ### Fields of the first halfword (30_encoding.md R72, FIELD_LAYOUT) -/

/-- op = hi[15:11]. -/
def opField (hi : Halfword) : BitVec 5 := hi.extractLsb' 11 5

/-- rd = hi[10:8]. -/
def rdField (hi : Halfword) : BitVec 3 := hi.extractLsb' 8 3

/-- ra = hi[7:5]. -/
def raField (hi : Halfword) : BitVec 3 := hi.extractLsb' 5 3

/-- rb = hi[4:2]. -/
def rbField (hi : Halfword) : BitVec 3 := hi.extractLsb' 2 3

/-- mode = hi[1:0]. -/
def modeField (hi : Halfword) : BitVec 2 := hi.extractLsb' 0 2

/-- The first halfword with the given fields. -/
def packFields (op : BitVec 5) (rd ra rb : BitVec 3) (mode : BitVec 2) : Halfword :=
  op ++ rd ++ ra ++ rb ++ mode

/-! ### The decoder (30_encoding.md R75 to R81) -/

/-- Operand 2 by the mode field (R77 to R80). `BitVec.toInt` reads the field as signed, which is the
sign extension of R78 (pattern 0xFFFFFFF8) and R79. -/
def decodeOperand2 (mode : BitVec 2) (rb : BitVec 3) (lo : Halfword) : Operand2 :=
  match mode.toNat with
  | 0 => .reg (regOfBits rb)
  | 1 => .short rb.toInt
  | 2 => .long rb lo.toInt
  | _ => .invalid rb

/-- The opcode map (30_encoding.md R84): the row a 5-bit opcode selects. The last arm is 31. -/
def instrOfFields (op : BitVec 5) (rd ra : Reg) (o : Operand2) : Instr :=
  match op.toNat with
  | 0  => .ldb rd ra o
  | 1  => .ldh rd ra o
  | 2  => .ldw rd ra o
  | 3  => .stb rd ra o
  | 4  => .sth rd ra o
  | 5  => .stw rd ra o
  | 6  => .push rd ra o
  | 7  => .pop rd ra o
  | 8  => .bnz rd ra o
  | 9  => .wfi rd ra o
  | 10 => .mskw rd ra o
  | 11 => .mskr rd ra o
  | 12 => .pndw rd ra o
  | 13 => .pndr rd ra o
  | 14 => .halt rd ra o
  | 15 => .invalid0f rd ra o
  | 16 => .adc rd ra o
  | 17 => .sbc rd ra o
  | 18 => .cmp rd ra o
  | 19 => .land rd ra o
  | 20 => .lor rd ra o
  | 21 => .lnot rd ra o
  | 22 => .lsr rd ra o
  | 23 => .lsl rd ra o
  | 24 => .asr rd ra o
  | 25 => .ror rd ra o
  | 26 => .invalid1a rd ra o
  | 27 => .invalid1b rd ra o
  | 28 => .invalid1c rd ra o
  | 29 => .invalid1d rd ra o
  | 30 => .invalid1e rd ra o
  | _  => .invalid1f rd ra o

/-- The decoder on the fetch window (30_encoding.md R81): every window is one instruction (R85). `lo` is
used only in mode 10 (R73). -/
def decodeWindow (hi lo : Halfword) : Instr :=
  instrOfFields (opField hi) (regOfBits (rdField hi)) (regOfBits (raField hi))
    (decodeOperand2 (modeField hi) (rbField hi) lo)

/-- Why a byte list is no instruction. -/
inductive DecodeError where
  /-- the list ends before the instruction does -/
  | truncated
deriving DecidableEq, Repr

/-- What the decoder reads from a byte list: an instruction and the bytes after it, or a rejection. -/
inductive DecodeResult where
  | ok (i : Instr) (rest : List Byte)
  | rejected (e : DecodeError)
deriving DecidableEq, Repr

/-- The decoder on bytes in address order. The length is 4 exactly when the mode is 10 (R70, R88). -/
def decode (o : ByteOrder) : List Byte → DecodeResult
  | b0 :: b1 :: rest =>
    if modeField (halfword o b0 b1) = 2#2 then
      match rest with
      | b2 :: b3 :: rest' => .ok (decodeWindow (halfword o b0 b1) (halfword o b2 b3)) rest'
      | []                => .rejected .truncated
      | [_]               => .rejected .truncated
    else .ok (decodeWindow (halfword o b0 b1) 0#16) rest
  | []  => .rejected .truncated
  | [_] => .rejected .truncated

/-! ### The fields of an instruction and the encoder (30_encoding.md R72 to R74, R84) -/

/-- The parts of an instruction: opcode, destination, operand-1 register, operand 2. -/
structure Fields where
  op : BitVec 5
  rd : Reg
  ra : Reg
  o  : Operand2
deriving DecidableEq, Repr

/-- The opcode and the fields of each row (30_encoding.md R84). -/
def instrFields : Instr → Fields
  | .ldb rd ra o => ⟨0x00#5, rd, ra, o⟩
  | .ldh rd ra o => ⟨0x01#5, rd, ra, o⟩
  | .ldw rd ra o => ⟨0x02#5, rd, ra, o⟩
  | .stb rd ra o => ⟨0x03#5, rd, ra, o⟩
  | .sth rd ra o => ⟨0x04#5, rd, ra, o⟩
  | .stw rd ra o => ⟨0x05#5, rd, ra, o⟩
  | .push rd ra o => ⟨0x06#5, rd, ra, o⟩
  | .pop rd ra o => ⟨0x07#5, rd, ra, o⟩
  | .bnz rd ra o => ⟨0x08#5, rd, ra, o⟩
  | .wfi rd ra o => ⟨0x09#5, rd, ra, o⟩
  | .mskw rd ra o => ⟨0x0A#5, rd, ra, o⟩
  | .mskr rd ra o => ⟨0x0B#5, rd, ra, o⟩
  | .pndw rd ra o => ⟨0x0C#5, rd, ra, o⟩
  | .pndr rd ra o => ⟨0x0D#5, rd, ra, o⟩
  | .halt rd ra o => ⟨0x0E#5, rd, ra, o⟩
  | .invalid0f rd ra o => ⟨0x0F#5, rd, ra, o⟩
  | .adc rd ra o => ⟨0x10#5, rd, ra, o⟩
  | .sbc rd ra o => ⟨0x11#5, rd, ra, o⟩
  | .cmp rd ra o => ⟨0x12#5, rd, ra, o⟩
  | .land rd ra o => ⟨0x13#5, rd, ra, o⟩
  | .lor rd ra o => ⟨0x14#5, rd, ra, o⟩
  | .lnot rd ra o => ⟨0x15#5, rd, ra, o⟩
  | .lsr rd ra o => ⟨0x16#5, rd, ra, o⟩
  | .lsl rd ra o => ⟨0x17#5, rd, ra, o⟩
  | .asr rd ra o => ⟨0x18#5, rd, ra, o⟩
  | .ror rd ra o => ⟨0x19#5, rd, ra, o⟩
  | .invalid1a rd ra o => ⟨0x1A#5, rd, ra, o⟩
  | .invalid1b rd ra o => ⟨0x1B#5, rd, ra, o⟩
  | .invalid1c rd ra o => ⟨0x1C#5, rd, ra, o⟩
  | .invalid1d rd ra o => ⟨0x1D#5, rd, ra, o⟩
  | .invalid1e rd ra o => ⟨0x1E#5, rd, ra, o⟩
  | .invalid1f rd ra o => ⟨0x1F#5, rd, ra, o⟩

/-- The mode field of an operand 2. -/
def modeBits : Operand2 → BitVec 2
  | .reg _     => 0#2
  | .short _   => 1#2
  | .long _ _  => 2#2
  | .invalid _ => 3#2

/-- The rb field of an operand 2. -/
def rbBits : Operand2 → BitVec 3
  | .reg rb     => bitsOfReg rb
  | .short n    => BitVec.ofInt 3 n
  | .long rb _  => rb
  | .invalid rb => rb

/-- The second halfword, part of the instruction only in mode 10 (R73). -/
def immWords : Operand2 → List Halfword
  | .reg _     => []
  | .short _   => []
  | .long _ n  => [BitVec.ofInt 16 n]
  | .invalid _ => []

/-- The first halfword of an instruction with the given parts. -/
def firstHalfword (f : Fields) : Halfword :=
  packFields f.op (bitsOfReg f.rd) (bitsOfReg f.ra) (rbBits f.o) (modeBits f.o)

/-- The halfwords of an instruction: Format S or Format L (30_encoding.md R74). -/
def encode (i : Instr) : List Halfword :=
  firstHalfword (instrFields i) :: immWords (instrFields i).o

/-- The bytes of an instruction in address order. -/
def encodeBytes (o : ByteOrder) (i : Instr) : List Byte :=
  (encode i).flatMap fun h => bytesOfValue o 2 h.toNat

/-! ### The host's word -/

/-- The window (hi, lo) that a table word stands for: bits 15..0 are the first halfword, bits 31..16 the
second, and every bit from nbits up is 0. -/
def tableWindow (nbits w : Nat) : Halfword × Halfword :=
  (BitVec.ofNat 16 (w % 2 ^ nbits), BitVec.ofNat 16 (w % 2 ^ nbits / 65536))

/-- The bytes of a window in address order. -/
def windowBytes (o : ByteOrder) (win : Halfword × Halfword) : List Byte :=
  bytesOfValue o 2 win.1.toNat ++ bytesOfValue o 2 win.2.toNat

/-- The instruction the decoder reads from a table word laid out as the hardware stores it. -/
def decodeTableWord (nbits w : Nat) : Option Instr :=
  match decode .little (windowBytes .little (tableWindow nbits w)) with
  | .ok i _     => some i
  | .rejected _ => none

end Sys2Proof
end

