-- ==== Sys2Proof/Machine/State.lean ====
section
/-!
DEFINITION. The state of the core (10_state.md), its reset value (R39), and the reasons a step can stop.
R0 has no field: it is hard-wired (R22), see `State.readReg` and `State.writePort` in Ops.lean.
-/

namespace Sys2Proof.Machine

open Sys2Proof

/-- The run state of the core (10_state.md R36). -/
inductive RunState where
  | running
  | halted
  | memFault
deriving DecidableEq, Repr

/-- Why a step gives no next state. Both are raised by `step` alone, in a run state in which the spec runs
no cycle; no meaning raises one. -/
inductive Fault where
  /-- The run state is HALTED: the run has ended (R36, R184). Raised by `step`. Safe: the spec has no
  further cycle. -/
  | halted
  /-- The run state is MEMFAULT: the run has ended (R36, R184). Raised by `step`. Safe: the spec has no
  further cycle. -/
  | memFault
deriving DecidableEq, Repr

/-- Why something is refused. -/
inductive Refusal where
  /-- An instruction that has no meaning yet. Raised by an arm of `exec` only; no arm of this model does.
  Safe. -/
  | notModelled (mnemonic : String)
  /-- The host loads an image longer than 65536 bytes (70_reset_and_hazards.md R222, D22). Raised by
  `hostLoad` only. Safe: outside the host's contract. -/
  | imageTooLong
deriving DecidableEq, Repr

/-- Memory (20_memory.md R50): the bytes that are not zero, by strictly rising address. An address that is
not listed reads as 0, its reset value. -/
abbrev Memory := List Host.Cell

/-- The canonical form: addresses strictly rising and below 65536, no listed byte zero. -/
abbrev Memory.wf (m : Memory) : Prop :=
  m.Pairwise (fun x y => x.1 < y.1) ∧ ∀ c ∈ m, c.1 < Config.memSize ∧ c.2 ≠ 0#8

/-- The host's view of the last cycle that reached decode: the operation and its operand values
(70_reset_and_hazards.md R226). No rule reads it. -/
structure LastDecoded where
  instr : Instr
  op1   : Word
  op2   : Word
deriving DecidableEq, Repr

/-- The state of the core (10_state.md), and four fields of the model's own: `lastDecoded` (log entry 9),
`params` (log entry 1), `draws` (log entry 3) and `requests` (log entry 7). -/
@[ext]
structure State where
  /-- R1 to R5 (R20) -/
  r1 : Word
  r2 : Word
  r3 : Word
  r4 : Word
  r5 : Word
  /-- SP, slot 6 (R24) -/
  sp : Word
  /-- PC, slot 7 (R25) -/
  pc : Word
  /-- F.PC_HALT (R27) -/
  pcHalt : Bool
  /-- F.PC_DOUBLE (R28) -/
  pcDouble : Bool
  /-- F.STORE_REG (R29) -/
  storeReg : Bool
  /-- F.WFI (R30) -/
  wfi : Bool
  /-- F.HALT (R31) -/
  halt : Bool
  /-- C (R32) -/
  carry : Bool
  /-- M, the interrupt mask (R33) -/
  mask : Lines
  /-- P, the interrupt pending register (R34) -/
  pending : Lines
  /-- the 65536 bytes of memory (20_memory.md R50) -/
  mem : Memory
  /-- the run state (R36) -/
  runState : RunState
  /-- the host's view of the last decoded instruction (70_reset_and_hazards.md R226) -/
  lastDecoded : Option LastDecoded
  /-- the parameters (00_scope.md R9); no step changes them -/
  params : Config.Params
  /-- how many free values have been drawn (00_scope.md R17) -/
  draws : Nat
  /-- the schedule of external interrupt requests (60_exceptions.md R198) -/
  requests : List Lines
deriving DecidableEq, Repr

/-- The state after reset with the given parameters (10_state.md R39, 70_reset_and_hazards.md R221). -/
def State.resetWith (p : Config.Params) : State where
  r1 := 0
  r2 := 0
  r3 := 0
  r4 := 0
  r5 := 0
  sp := p.stackBase
  pc := 0
  pcHalt := true
  pcDouble := false
  storeReg := false
  wfi := false
  halt := false
  carry := false
  mask := 0x0001
  pending := 0
  mem := []
  runState := .running
  lastDecoded := none
  params := p
  draws := 0
  requests := []

/-- The machine right after reset, with the spec's default of every switch and the OPEN values left open
(log entries 1 and 2). -/
def State.reset : State := State.resetWith Config.defaults

end Sys2Proof.Machine
end

