-- ==== Sys2Proof/Machine/Ops.lean ====
section
/-!
DEFINITION. The named operations over memory and registers, the fault interrupt, and interrupt dispatch
(taking an exception). There is no return from an exception beside it: the core has no return instruction
(60_exceptions.md R199).
-/

namespace Sys2Proof.Machine

open Sys2Proof

/-! ### Memory, one byte at a time (20_memory.md R50, R60) -/

/-- The byte at an address: the listed one, else 0 (R50). -/
def Memory.readByte : Memory → Nat → Byte
  | [],          _ => 0
  | (k, b) :: m, a => if k = a then b else Memory.readByte m a

/-- The memory with no entry for an address. -/
def Memory.dropByte (m : Memory) (a : Nat) : Memory :=
  m.filter fun c => decide (c.1 ≠ a)

/-- The memory with an entry put before the first greater address. -/
def Memory.insertByte : Memory → Nat → Byte → Memory
  | [],          a, b => [(a, b)]
  | (k, c) :: m, a, b => if a < k then (a, b) :: (k, c) :: m else (k, c) :: Memory.insertByte m a b

/-- Writing a byte: the entry of the address is replaced, or removed when the byte is the one an unlisted
address reads as. -/
def Memory.writeByte (m : Memory) (a : Nat) (b : Byte) : Memory :=
  if b = 0 then Memory.dropByte m a else Memory.insertByte (Memory.dropByte m a) a b

/-! ### Accesses of n bytes (20_memory.md R55, R58) -/

/-- The address of byte k of an access at a (R55). In range it is a + k; out of range it is used only with
OOB_POLICY = wrap. -/
def byteAddr (a k : Nat) : Nat := (a + k) % Config.memSize

/-- The n bytes at a, in address order, from byte k on. -/
def Memory.readFrom (m : Memory) (a : Nat) : Nat → Nat → List Byte
  | _, 0     => []
  | k, n + 1 => Memory.readByte m (byteAddr a k) :: Memory.readFrom m a (k + 1) n

/-- Bytes written at a, in address order, from byte k on. -/
def Memory.writeFrom (m : Memory) (a : Nat) : Nat → List Byte → Memory
  | _, []      => m
  | k, b :: bs => Memory.writeFrom (Memory.writeByte m (byteAddr a k) b) a (k + 1) bs

/-- The bounds rule allows an access of n bytes at a (R55). -/
def State.accessAllowed (s : State) (a : Word) (n : Nat) : Bool :=
  decide (a.toNat + n ≤ Config.memSize) || decide (s.params.oobPolicy = .wrap)

/-- MemRead(a, n) after its bounds check: a number of 8n bits (00_scope.md R14). -/
def State.memValue (s : State) (a : Word) (n : Nat) : Nat :=
  valueOfBytes s.params.byteOrder (Memory.readFrom s.mem a.toNat 0 n)

/-- MemWrite(a, n, v) after its bounds check: the low 8n bits of v (00_scope.md R14). -/
def State.memStore (s : State) (a : Word) (n : Nat) (v : Word) : State :=
  { s with mem := Memory.writeFrom s.mem a.toNat 0 (bytesOfValue s.params.byteOrder n v.toNat) }

/-- `stop MEMFAULT` (00_scope.md R15): the run ends; what the cycle did before remains (R55). -/
def State.stopMemFault (s : State) : State := { s with runState := .memFault }

/-! ### Registers (10_state.md R20 to R25) -/

/-- x[i]: R0 reads 0 (R22). -/
def State.readReg (s : State) : Reg → Word
  | .r0 => 0
  | .r1 => s.r1
  | .r2 => s.r2
  | .r3 => s.r3
  | .r4 => s.r4
  | .r5 => s.r5
  | .sp => s.sp
  | .pc => s.pc

/-- RegWrite(i, v), the register-file write port (R23): R0 drops the write, PC also sets F.PC_HALT. -/
def State.writePort (s : State) (i : Reg) (v : Word) : State :=
  match i with
  | .r0 => s
  | .r1 => { s with r1 := v }
  | .r2 => { s with r2 := v }
  | .r3 => { s with r3 := v }
  | .r4 => { s with r4 := v }
  | .r5 => { s with r5 := v }
  | .sp => { s with sp := v }
  | .pc => { s with pc := v, pcHalt := true }

/-- An internal update of SP: push, pop and dispatch (R23). -/
def State.withSp (s : State) (v : Word) : State := { s with sp := v }

/-- PC set without an advance at the next cycle: a taken branch (42_flow_control.md R120) and dispatch
(60_exceptions.md R196). -/
def State.jumpTo (s : State) (v : Word) : State := { s with pc := v, pcHalt := true }

/-- F.STORE_REG <- 1 (10_state.md R29). -/
def State.markResult (s : State) : State := { s with storeReg := true }

/-- F.WFI set or cleared (10_state.md R30). -/
def State.withWfi (s : State) (b : Bool) : State := { s with wfi := b }

/-- F.HALT <- 1 (10_state.md R31). -/
def State.markHalt (s : State) : State := { s with halt := true }

/-- A new value of M (10_state.md R33). -/
def State.withMask (s : State) (m : Lines) : State := { s with mask := m }

/-- A new value of P (10_state.md R34). -/
def State.withPending (s : State) (p : Lines) : State := { s with pending := p }

/-! ### Free values (00_scope.md R17) -/

/-- The next free value. -/
def State.freeValue (s : State) : Word := Config.unspec s.draws

/-- The free value is taken: the next one is another. -/
def State.drawn (s : State) : State := { s with draws := s.draws + 1 }

/-! ### Writeback (44_cycle.md R181, R182) -/

/-- Step 5: the result goes to rd if F.STORE_REG is set. -/
def State.writeback (s : State) (rd : Reg) (result : Word) : State :=
  if s.storeReg then s.writePort rd result else s

/-- The end of an instruction that computes a result and sets F.STORE_REG (R181, 43_alu.md R155). -/
def State.finishResult (s : State) (rd : Reg) (result : Word) : State :=
  s.markResult.writeback rd result

/-- The end of an instruction that assigns no result: writeback has a free value (R181). -/
def State.finishNoResult (s : State) (rd : Reg) : State :=
  s.drawn.writeback rd s.freeValue

/-! ### The fault interrupt and dispatch (60_exceptions.md R190, R196) -/

/-- `raise IFAULT`: P[0] <- 1 (00_scope.md R15, R190). -/
def State.raiseIfault (s : State) : State := { s with pending := s.pending ||| 0x0001#16 }

/-- SP after a dispatch push, by DISPATCH_SP_MODE (R196). -/
def State.dispatchSp (s : State) : Word :=
  match s.params.dispatchSpMode with
  | .decrement => s.sp - 4
  | .increment => s.sp + 4

/-- The handler entry as an address (R196). -/
def State.handlerEntry (s : State) : Word := BitVec.ofNat 32 s.params.irqVector.val

/-- Dispatch(), taking an interrupt (R196): PC is pushed at SP, SP moves, PC <- IRQ_VECTOR, F.PC_HALT <- 1,
F.WFI <- 0. A push outside memory stops in MEMFAULT before anything changes. -/
def State.dispatch (s : State) : State :=
  if s.accessAllowed s.sp 4 then
    (((s.memStore s.sp 4 s.pc).withSp s.dispatchSp).jumpTo s.handlerEntry).withWfi false
  else s.stopMemFault

end Sys2Proof.Machine
end

