-- ==== Sys2Proof/Machine/Operands.lean ====
section
/-!
DEFINITION. Operand resolution (30_encoding.md R75 to R82): operand 1, operand 2 in its four forms, and
the effects of the decoder.
-/

namespace Sys2Proof.Machine

open Sys2Proof

/-- Operand 1 is the register ra (R76). -/
def State.operand1 (s : State) (ra : Reg) : Word := s.readReg ra

/-- Operand 2 by addressing mode (R77 to R80). In mode 11 it is a free value (R80, U1). -/
def State.operand2 (s : State) : Operand2 → Word
  | .reg rb    => s.readReg rb
  | .short n   => BitVec.ofInt 32 n
  | .long _ n  => BitVec.ofInt 32 n
  | .invalid _ => s.freeValue

/-- What the decoder does to the state: mode 10 sets F.PC_DOUBLE (R79), mode 11 raises IFAULT and takes a
free value (R80). -/
def State.afterDecode (s : State) : Operand2 → State
  | .reg _     => s
  | .short _   => s
  | .long _ _  => { s with pcDouble := true }
  | .invalid _ => s.raiseIfault.drawn

/-- The operand 2 of an instruction, whatever its opcode (R75, R79). -/
abbrev instrOperand2 (i : Instr) : Operand2 := (instrFields i).o

/-- The host's view of what the decoder read (70_reset_and_hazards.md R226). -/
def State.noteDecoded (s : State) (i : Instr) : State :=
  { s with lastDecoded := some ⟨i, s.operand1 (instrFields i).ra, s.operand2 (instrFields i).o⟩ }

end Sys2Proof.Machine
end

