-- ==== Sys2Proof/Machine/Flags.lean ====
section
/-!
DEFINITION. The only arithmetic flag is the carry bit C (43_alu.md R151, R155): the 33-bit sums of ADC and
SBC, and how C is written.
-/

namespace Sys2Proof.Machine

open Sys2Proof

/-- The wide sum of ADC: op1 + op2 + C over the integers (43_alu.md R140). -/
def adcSum (op1 op2 : Word) (c : Bool) : Nat :=
  op1.toNat + op2.toNat + c.toNat

/-- The wide sum of SBC: op1 + (~op2) + (1 - C) over the integers (43_alu.md R141). -/
def sbcSum (op1 op2 : Word) (c : Bool) : Nat :=
  op1.toNat + (~~~op2).toNat + (!c).toNat

/-- The result of a wide sum: its low 32 bits. -/
def sumResult (sum : Nat) : Word := BitVec.ofNat 32 sum

/-- The carry of a wide sum: bit 32. -/
def sumCarry (sum : Nat) : Bool := decide (2 ^ 32 ≤ sum)

/-- C is written by ADC and SBC only (10_state.md R32). Under mode 11 the new C is a draw of its own (R140:
"a draw for each"; log entry 4). -/
def State.writeCarry (s : State) (o : Operand2) (c : Bool) : State :=
  match o with
  | .reg _     => { s with carry := c }
  | .short _   => { s with carry := c }
  | .long _ _  => { s with carry := c }
  | .invalid _ => { s.drawn with carry := s.freeValue.getLsbD 0 }

end Sys2Proof.Machine
end

