-- ==== Sys2Proof/Machine/Alu.lean ====
section
/-!
DEFINITION. The ALU with carry (43_alu.md R140 to R156), and opcode 0x0F (42_flow_control.md R127), which
the default OP_0F_MODE sends here.
-/

namespace Sys2Proof.Machine

open Sys2Proof

/-! ### Shift amounts (R150) -/

/-- An amount that SHIFT_POLICY = saturate shifts all the way out: 32 or more (R150). -/
def saturated (p : Config.ShiftPolicy) (amount : Word) : Bool :=
  match p with
  | .mask31   => false
  | .saturate => decide (32 ≤ amount.toNat)

/-- op2[4:0], the amount used when the shift is not saturated (R150). -/
def lowAmount (amount : Word) : Nat := amount.toNat % 32

/-- LSR (R146). -/
def shiftRightLogical (p : Config.ShiftPolicy) (v amount : Word) : Word :=
  if saturated p amount then 0 else v >>> lowAmount amount

/-- LSL (R147). -/
def shiftLeft (p : Config.ShiftPolicy) (v amount : Word) : Word :=
  if saturated p amount then 0 else v <<< lowAmount amount

/-- ASR (R148): bit 31 fills the vacated bits. -/
def shiftRightArith (p : Config.ShiftPolicy) (v amount : Word) : Word :=
  if saturated p amount then (if v.msb then 0xFFFFFFFF#32 else 0) else v.sshiftRight (lowAmount amount)

/-- ROR (R149): both policies rotate by op2 mod 32. -/
def rotateRight (v amount : Word) : Word :=
  if lowAmount amount = 0 then v
  else (v >>> lowAmount amount) ||| (v <<< (32 - lowAmount amount))

/-- CMP (R142): 1, 0 or all ones, comparing as unsigned numbers. -/
def compareResult (op1 op2 : Word) : Word :=
  if op2.toNat < op1.toNat then 0x00000001#32
  else if op1 = op2 then 0x00000000#32
  else 0xFFFFFFFF#32

/-! ### The shape of an ALU operation -/

/-- An operation on the two operands that sets F.STORE_REG and leaves C unchanged (R155). -/
def State.aluResult (s : State) (f : Word → Word → Word) (rd ra : Reg) (o : Operand2) : State :=
  (s.afterDecode o).finishResult rd (f (s.operand1 ra) (s.operand2 o))

/-- An operation whose wide sum gives the result and C (R140, R141). -/
def State.aluSum (s : State) (sum : Nat) (rd : Reg) (o : Operand2) : State :=
  ((s.afterDecode o).writeCarry o (sumCarry sum)).finishResult rd (sumResult sum)

/-- The invalid-opcode path (R156): result 0, IFAULT raised, F.STORE_REG not set; writeback writes 0 if it
was set already. -/
def State.aluInvalid (s : State) (rd : Reg) (o : Operand2) : State :=
  (s.afterDecode o).raiseIfault.writeback rd 0

/-- ADC (R140). -/
def execAdc (rd ra : Reg) (o : Operand2) (s : State) : Host.Outcome State Fault Refusal :=
  .next (s.aluSum (adcSum (s.operand1 ra) (s.operand2 o) s.carry) rd o)

/-- SBC (R141, R153): C is read as a borrow and written as "no borrow". -/
def execSbc (rd ra : Reg) (o : Operand2) (s : State) : Host.Outcome State Fault Refusal :=
  .next (s.aluSum (sbcSum (s.operand1 ra) (s.operand2 o) s.carry) rd o)

/-- CMP (R142). -/
def execCmp (rd ra : Reg) (o : Operand2) (s : State) : Host.Outcome State Fault Refusal :=
  .next (s.aluResult compareResult rd ra o)

/-- AND (R143). -/
def execLand (rd ra : Reg) (o : Operand2) (s : State) : Host.Outcome State Fault Refusal :=
  .next (s.aluResult (fun a b => a &&& b) rd ra o)

/-- OR (R144). -/
def execLor (rd ra : Reg) (o : Operand2) (s : State) : Host.Outcome State Fault Refusal :=
  .next (s.aluResult (fun a b => a ||| b) rd ra o)

/-- NOT (R145): operand 2 is ignored. -/
def execLnot (rd ra : Reg) (o : Operand2) (s : State) : Host.Outcome State Fault Refusal :=
  .next (s.aluResult (fun a _ => ~~~a) rd ra o)

/-- LSR (R146). -/
def execLsr (rd ra : Reg) (o : Operand2) (s : State) : Host.Outcome State Fault Refusal :=
  .next (s.aluResult (shiftRightLogical s.params.shiftPolicy) rd ra o)

/-- LSL (R147). -/
def execLsl (rd ra : Reg) (o : Operand2) (s : State) : Host.Outcome State Fault Refusal :=
  .next (s.aluResult (shiftLeft s.params.shiftPolicy) rd ra o)

/-- ASR (R148). -/
def execAsr (rd ra : Reg) (o : Operand2) (s : State) : Host.Outcome State Fault Refusal :=
  .next (s.aluResult (shiftRightArith s.params.shiftPolicy) rd ra o)

/-- ROR (R149). -/
def execRor (rd ra : Reg) (o : Operand2) (s : State) : Host.Outcome State Fault Refusal :=
  .next (s.aluResult rotateRight rd ra o)

/-- Opcode 0x0F (42_flow_control.md R127): the ALU invalid path by default, no operation (and so a free value
at writeback) with OP_0F_MODE = flow_nop. -/
def execInvalid0f (rd _ra : Reg) (o : Operand2) (s : State) : Host.Outcome State Fault Refusal :=
  .next <|
    match s.params.op0fMode with
    | .aluFault => s.aluInvalid rd o
    | .flowNop  => (s.afterDecode o).finishNoResult rd

/-- Opcode 0x1A (R156). -/
def execInvalid1a (rd _ra : Reg) (o : Operand2) (s : State) : Host.Outcome State Fault Refusal :=
  .next (s.aluInvalid rd o)

/-- Opcode 0x1B (R156). -/
def execInvalid1b (rd _ra : Reg) (o : Operand2) (s : State) : Host.Outcome State Fault Refusal :=
  .next (s.aluInvalid rd o)

/-- Opcode 0x1C (R156). -/
def execInvalid1c (rd _ra : Reg) (o : Operand2) (s : State) : Host.Outcome State Fault Refusal :=
  .next (s.aluInvalid rd o)

/-- Opcode 0x1D (R156). -/
def execInvalid1d (rd _ra : Reg) (o : Operand2) (s : State) : Host.Outcome State Fault Refusal :=
  .next (s.aluInvalid rd o)

/-- Opcode 0x1E (R156). -/
def execInvalid1e (rd _ra : Reg) (o : Operand2) (s : State) : Host.Outcome State Fault Refusal :=
  .next (s.aluInvalid rd o)

/-- Opcode 0x1F (R156). -/
def execInvalid1f (rd _ra : Reg) (o : Operand2) (s : State) : Host.Outcome State Fault Refusal :=
  .next (s.aluInvalid rd o)

end Sys2Proof.Machine
end

