-- ==== Sys2Proof/Machine/FlowControl.lean ====
section
/-!
DEFINITION. The flow-control unit (42_flow_control.md R120 to R128). None of these instructions is
privileged (60_exceptions.md R202).
-/

namespace Sys2Proof.Machine

open Sys2Proof

/-- Bit `index` of M or P set to a value; an index of 16 or more has no effect (R128). -/
def writeLine (lines : Lines) (index : Word) (value : Bool) : Lines :=
  if index.toNat < Config.irqLines then
    if value then lines ||| (1#16 <<< index.toNat) else lines &&& ~~~(1#16 <<< index.toNat)
  else lines

/-- Bit `index` of M or P as 0 or 1; an index of 16 or more reads 0 (R128). -/
def readLine (lines : Lines) (index : Word) : Word :=
  if index.toNat < Config.irqLines then
    if lines.getLsbD index.toNat then 1 else 0
  else 0

/-- bool(v) (00_scope.md R12). -/
def nonzero (v : Word) : Bool := decide (v ≠ 0)

/-- BNZ (R120): if operand 1 is nonzero, PC <- operand 2 and F.PC_HALT <- 1. -/
def execBnz (rd ra : Reg) (o : Operand2) (s : State) : Host.Outcome State Fault Refusal :=
  let s1 := s.afterDecode o
  .next ((if nonzero (s.operand1 ra) then s1.jumpTo (s.operand2 o) else s1).finishNoResult rd)

/-- WFI (R121): F.WFI <- 1. -/
def execWfi (rd _ra : Reg) (o : Operand2) (s : State) : Host.Outcome State Fault Refusal :=
  .next (((s.afterDecode o).withWfi true).finishNoResult rd)

/-- MSKW (R122): M[op1] <- bool(op2). -/
def execMskw (rd ra : Reg) (o : Operand2) (s : State) : Host.Outcome State Fault Refusal :=
  let s1 := s.afterDecode o
  .next ((s1.withMask (writeLine s1.mask (s.operand1 ra) (nonzero (s.operand2 o)))).finishNoResult rd)

/-- MSKR (R123): result <- M[op1]. -/
def execMskr (rd ra : Reg) (o : Operand2) (s : State) : Host.Outcome State Fault Refusal :=
  let s1 := s.afterDecode o
  .next (s1.finishResult rd (readLine s1.mask (s.operand1 ra)))

/-- PNDW (R124): P[op1] <- bool(op2), after the decoder's own write of P[0] under mode 11. -/
def execPndw (rd ra : Reg) (o : Operand2) (s : State) : Host.Outcome State Fault Refusal :=
  let s1 := s.afterDecode o
  .next ((s1.withPending (writeLine s1.pending (s.operand1 ra) (nonzero (s.operand2 o)))).finishNoResult rd)

/-- PNDR (R125): result <- M[op1] by default, P[op1] with OP_0D_MODE = read_pending. -/
def execPndr (rd ra : Reg) (o : Operand2) (s : State) : Host.Outcome State Fault Refusal :=
  let s1 := s.afterDecode o
  let lines := match s1.params.op0dMode with
    | .readMask    => s1.mask
    | .readPending => s1.pending
  .next (s1.finishResult rd (readLine lines (s.operand1 ra)))

/-- HALT (R126): F.HALT <- 1; writeback still applies. -/
def execHalt (rd _ra : Reg) (o : Operand2) (s : State) : Host.Outcome State Fault Refusal :=
  .next ((s.afterDecode o).markHalt.finishNoResult rd)

end Sys2Proof.Machine
end

