-- ==== Sys2Proof/Machine/MemoryUnit.lean ====
section
/-!
DEFINITION. The memory unit (41_memory_unit.md R100 to R108). The effective address is operand 1 used as a
raw byte address (R100); push and pop use SP. An access that fails the bounds rule stops in MEMFAULT with
the decoder's effects kept and nothing else done (20_memory.md R55).
-/

namespace Sys2Proof.Machine

open Sys2Proof

/-- A load of n bytes at operand 1, widened with zeros (R101 to R103). -/
def State.loadResult (s : State) (n : Nat) (rd ra : Reg) (o : Operand2) : State :=
  let s1 := s.afterDecode o
  if s1.accessAllowed (s.operand1 ra) n then
    s1.finishResult rd (BitVec.ofNat 32 (s1.memValue (s.operand1 ra) n))
  else s1.stopMemFault

/-- A store of the low n bytes of operand 2 at operand 1 (R104 to R106). -/
def State.storeValue (s : State) (n : Nat) (rd ra : Reg) (o : Operand2) : State :=
  let s1 := s.afterDecode o
  if s1.accessAllowed (s.operand1 ra) n then
    (s1.memStore (s.operand1 ra) n (s.operand2 o)).finishNoResult rd
  else s1.stopMemFault

/-- LDB (R101). -/
def execLdb (rd ra : Reg) (o : Operand2) (s : State) : Host.Outcome State Fault Refusal :=
  .next (s.loadResult 1 rd ra o)

/-- LDH (R102). -/
def execLdh (rd ra : Reg) (o : Operand2) (s : State) : Host.Outcome State Fault Refusal :=
  .next (s.loadResult 2 rd ra o)

/-- LDW (R103). -/
def execLdw (rd ra : Reg) (o : Operand2) (s : State) : Host.Outcome State Fault Refusal :=
  .next (s.loadResult 4 rd ra o)

/-- STB (R104). -/
def execStb (rd ra : Reg) (o : Operand2) (s : State) : Host.Outcome State Fault Refusal :=
  .next (s.storeValue 1 rd ra o)

/-- STH (R105). -/
def execSth (rd ra : Reg) (o : Operand2) (s : State) : Host.Outcome State Fault Refusal :=
  .next (s.storeValue 2 rd ra o)

/-- STW (R106). -/
def execStw (rd ra : Reg) (o : Operand2) (s : State) : Host.Outcome State Fault Refusal :=
  .next (s.storeValue 4 rd ra o)

/-- PUSH (R107): operand 2 is written at the current SP, then SP grows by 4. -/
def execPush (rd _ra : Reg) (o : Operand2) (s : State) : Host.Outcome State Fault Refusal :=
  let s1 := s.afterDecode o
  .next <|
    if s1.accessAllowed s1.sp 4 then
      ((s1.memStore s1.sp 4 (s.operand2 o)).withSp (s1.sp + 4)).finishNoResult rd
    else s1.stopMemFault

/-- POP (R108): the word at the current SP is read, then SP shrinks by 4; writeback comes after it. -/
def execPop (rd _ra : Reg) (o : Operand2) (s : State) : Host.Outcome State Fault Refusal :=
  let s1 := s.afterDecode o
  .next <|
    if s1.accessAllowed s1.sp 4 then
      (s1.withSp (s1.sp - 4)).finishResult rd (BitVec.ofNat 32 (s1.memValue s1.sp 4))
    else s1.stopMemFault

end Sys2Proof.Machine
end

