-- ==== Sys2Proof/Machine/Dispatch.lean ====
section
/-! DEFINITION. One arm per constructor of Instr (44_cycle.md R180). -/

namespace Sys2Proof.Machine

open Sys2Proof

def exec (i : Instr) (s : State) : Host.Outcome State Fault Refusal :=
  match i with
  | .ldb rd ra o => Sys2Proof.Machine.execLdb rd ra o s
  | .ldh rd ra o => Sys2Proof.Machine.execLdh rd ra o s
  | .ldw rd ra o => Sys2Proof.Machine.execLdw rd ra o s
  | .stb rd ra o => Sys2Proof.Machine.execStb rd ra o s
  | .sth rd ra o => Sys2Proof.Machine.execSth rd ra o s
  | .stw rd ra o => Sys2Proof.Machine.execStw rd ra o s
  | .push rd ra o => Sys2Proof.Machine.execPush rd ra o s
  | .pop rd ra o => Sys2Proof.Machine.execPop rd ra o s
  | .bnz rd ra o => Sys2Proof.Machine.execBnz rd ra o s
  | .wfi rd ra o => Sys2Proof.Machine.execWfi rd ra o s
  | .mskw rd ra o => Sys2Proof.Machine.execMskw rd ra o s
  | .mskr rd ra o => Sys2Proof.Machine.execMskr rd ra o s
  | .pndw rd ra o => Sys2Proof.Machine.execPndw rd ra o s
  | .pndr rd ra o => Sys2Proof.Machine.execPndr rd ra o s
  | .halt rd ra o => Sys2Proof.Machine.execHalt rd ra o s
  | .invalid0f rd ra o => Sys2Proof.Machine.execInvalid0f rd ra o s
  | .adc rd ra o => Sys2Proof.Machine.execAdc rd ra o s
  | .sbc rd ra o => Sys2Proof.Machine.execSbc rd ra o s
  | .cmp rd ra o => Sys2Proof.Machine.execCmp rd ra o s
  | .land rd ra o => Sys2Proof.Machine.execLand rd ra o s
  | .lor rd ra o => Sys2Proof.Machine.execLor rd ra o s
  | .lnot rd ra o => Sys2Proof.Machine.execLnot rd ra o s
  | .lsr rd ra o => Sys2Proof.Machine.execLsr rd ra o s
  | .lsl rd ra o => Sys2Proof.Machine.execLsl rd ra o s
  | .asr rd ra o => Sys2Proof.Machine.execAsr rd ra o s
  | .ror rd ra o => Sys2Proof.Machine.execRor rd ra o s
  | .invalid1a rd ra o => Sys2Proof.Machine.execInvalid1a rd ra o s
  | .invalid1b rd ra o => Sys2Proof.Machine.execInvalid1b rd ra o s
  | .invalid1c rd ra o => Sys2Proof.Machine.execInvalid1c rd ra o s
  | .invalid1d rd ra o => Sys2Proof.Machine.execInvalid1d rd ra o s
  | .invalid1e rd ra o => Sys2Proof.Machine.execInvalid1e rd ra o s
  | .invalid1f rd ra o => Sys2Proof.Machine.execInvalid1f rd ra o s

end Sys2Proof.Machine
end

