-- ==== Sys2Proof/Machine/Cycle.lean ====
section
/-!
DEFINITION. The run-loop sequencer, the fetch unit and the evaluator (44_cycle.md R170 to R185), the host's
load (70_reset_and_hazards.md R222), and where the next fetch goes.
-/

namespace Sys2Proof.Machine

open Sys2Proof

/-! ### The beginning of a cycle -/

/-- External requests arrive between cycles, with EXT_IRQ = present only; they set bits of P and clear none
(60_exceptions.md R198). -/
def State.acceptRequests (s : State) : State :=
  match s.params.extIrq with
  | .absent  => s
  | .present =>
    match s.requests with
    | []      => s
    | r :: rs => { s with pending := s.pending ||| r, requests := rs }

/-- PC after the advance step (R172), which is where this cycle would fetch. -/
def State.advancedPc (s : State) : Word :=
  if s.pcHalt then s.pc else s.pc + (if s.pcDouble then 4 else 2)

/-- The PC advance (R172); it does not set F.PC_HALT. -/
def State.advance (s : State) : State := { s with pc := s.advancedPc }

/-- A window of 4 bytes at PC would pass the end of memory (R173). -/
def State.pastEnd (s : State) : Bool := decide (Config.memSize < s.pc.toNat + 4)

/-- The end-of-memory guard (R173, D5): F.HALT <- 1 when the window at PC passes the end. -/
def State.guardEnd (s : State) : State := if s.pastEnd then s.markHalt else s

/-- The single-shot clear (R174), and F.STORE_REG too with STORE_REG_MODE = strict. -/
def State.clearSingleShot (s : State) : State :=
  { s with
    pcHalt := false
    pcDouble := false
    storeReg := match s.params.storeRegMode with
      | .sticky => s.storeReg
      | .strict => false }

/-- The advance, the guard and the clear, in order (R172 to R174). -/
def State.beginCycle (s : State) : State := s.advance.guardEnd.clearSingleShot

/-! ### Fetch (R175) and the evaluator (R177 to R180) -/

/-- The first halfword of the window at PC (30_encoding.md R71). -/
def State.fetchHi (s : State) : Halfword := BitVec.ofNat 16 (s.memValue s.pc 2)

/-- The second halfword of the window at PC (30_encoding.md R71). -/
def State.fetchLo (s : State) : Halfword := BitVec.ofNat 16 (s.memValue (s.pc + 2) 2)

/-- The instruction at PC. The fetch has no side effect (R175). -/
def State.fetched (s : State) : Instr := decodeWindow s.fetchHi s.fetchLo

/-- An enabled interrupt is pending (60_exceptions.md R194). -/
def State.interrupted (s : State) : Bool := decide (s.mask &&& s.pending ≠ 0)

/-- The WFI gate's effect (R178): none with WFI_MODE = advance, F.PC_HALT <- 1 with freeze. -/
def State.park (s : State) : State :=
  match s.params.wfiMode with
  | .advance => s
  | .freeze  => { s with pcHalt := true }

/-- Evaluate(hi, lo) (R176): the interrupt check, the WFI gate, then decode, execute and write back. -/
def evaluate (s : State) : Host.Outcome State Fault Refusal :=
  if s.interrupted then .next s.dispatch
  else if s.wfi then .next s.park
  else exec s.fetched (s.noteDecoded s.fetched)

/-- Cycle() (R176). A cycle that begins with F.HALT = 1 only enters HALTED (R171); a cycle whose guard sets
F.HALT ends without fetch or evaluation (R173, D6). -/
def cycle (s : State) : Host.Outcome State Fault Refusal :=
  if s.halt then .next { s with runState := .halted }
  else if s.beginCycle.halt then .next s.beginCycle
  else evaluate s.beginCycle

/-- One step: a cycle while the run state is RUNNING; in a terminal run state no cycle runs (R36, R170). -/
def runLoop (s : State) : Host.Outcome State Fault Refusal :=
  match s.runState with
  | .running  => cycle s.acceptRequests
  | .halted   => .fault .halted
  | .memFault => .fault .memFault

/-! ### The host's load (70_reset_and_hazards.md R222) -/

/-- Load(bytes): byte k of the image goes to address k; memory beyond it keeps its value. An image longer
than the memory is refused (D22). -/
def hostLoad (image : List Byte) (s : State) : Host.Outcome State Fault Refusal :=
  if image.length ≤ Config.memSize then .next { s with mem := Memory.writeFrom s.mem 0 0 image }
  else .refused .imageTooLong

/-- The state with the bytes of a window at the address the next cycle fetches from. -/
def State.placeWindow (s : State) (win : Halfword × Halfword) : State :=
  { s with mem := Memory.writeFrom s.mem s.advancedPc.toNat 0 (windowBytes s.params.byteOrder win) }

end Sys2Proof.Machine
end

