-- ==== Sys2Proof/Machine/Step.lean ====
section
/-! DEFINITION. The step function, and the host's placing of one instruction where step fetches next. -/

namespace Sys2Proof.Machine

/-- One cycle of the run loop (44_cycle.md R176). -/
def step (s : State) : Host.Outcome State Fault Refusal := runLoop s

/-- The state with a table word's instruction stored where the next step fetches. -/
def State.withFetchWord (s : State) (nbits w : Nat) : State :=
  s.placeWindow (tableWindow nbits w)

end Sys2Proof.Machine
end

