-- ==== Sys2Proof/Safety.lean ====
section
/-!
DEFINITION. The terms the claims use: what an instruction keeps, the effect of an instruction with and
without a result, the spec's own formulas for multi-byte values (20_memory.md R58), and the invariant that
every cycle keeps.
-/

namespace Sys2Proof.Machine

open Sys2Proof

/-! ### Memory in the spec's terms -/

/-- Byte k of an access at an address (R55). -/
def State.byteAt (s : State) (a : Word) (k : Nat) : Byte := Memory.readByte s.mem (byteAddr a.toNat k)

/-- MemRead(a, n) by R58's sums: byte k has weight 2^(8k), or 2^(8(n-1-k)) with BYTE_ORDER = big. -/
def State.readSum (s : State) (a : Word) (n : Nat) : Nat :=
  match s.params.byteOrder with
  | .little => ∑ k ∈ Finset.range n, (s.byteAt a k).toNat * 2 ^ (8 * k)
  | .big    => ∑ k ∈ Finset.range n, (s.byteAt a k).toNat * 2 ^ (8 * (n - 1 - k))

/-- Byte k of MemWrite(a, n, v) by R58: v[8k+7 : 8k], or v[8(n-1-k)+7 : 8(n-1-k)] with BYTE_ORDER = big. -/
def storedByte (p : Config.Params) (n : Nat) (v : Word) (k : Nat) : Byte :=
  match p.byteOrder with
  | .little => v.extractLsb' (8 * k) 8
  | .big    => v.extractLsb' (8 * (n - 1 - k)) 8

/-- Every byte of memory reads as before. -/
def KeepsMem (s t : State) : Prop := ∀ c, Memory.readByte t.mem c = Memory.readByte s.mem c

/-- Every byte of memory outside the n bytes at a reads as before. -/
def KeepsMemOutside (a : Word) (n : Nat) (s t : State) : Prop :=
  ∀ c, (∀ k < n, c ≠ byteAddr a.toNat k) → Memory.readByte t.mem c = Memory.readByte s.mem c

/-! ### What an instruction keeps and does -/

/-- P after the decoder: mode 11 sets P[0] (30_encoding.md R80). -/
def decodedPending (s : State) (o : Operand2) : Lines :=
  if o.isInvalid then s.pending ||| 0x0001#16 else s.pending

/-- What no instruction writes unless it is a stop: the run state, the parameters, the requests, and the
host's view. -/
structure KeepsMachine (s t : State) : Prop where
  runState    : t.runState = s.runState
  params      : t.params = s.params
  requests    : t.requests = s.requests
  lastDecoded : t.lastDecoded = s.lastDecoded

/-- M, F.WFI and F.HALT are kept, and P but for the decoder's fault. -/
structure KeepsFlow (o : Operand2) (s t : State) : Prop where
  mask    : t.mask = s.mask
  pending : t.pending = decodedPending s o
  wfi     : t.wfi = s.wfi
  halt    : t.halt = s.halt

/-- The effect of an instruction that computes the result v: F.STORE_REG is set, v goes to rd unless rd is
R0, and every other register is as `base` gives it (44_cycle.md R181, R182; 10_state.md R23). -/
structure ResultEffect (rd : Reg) (o : Operand2) (v : Word) (base : Reg → Word) (s t : State) : Prop where
  regs     : ∀ r, t.readReg r = if r = rd ∧ r ≠ .r0 then v else base r
  storeReg : t.storeReg = true
  pcHalt   : t.pcHalt = (s.pcHalt || decide (rd = .pc))
  pcDouble : t.pcDouble = (s.pcDouble || o.isLong)
  flow     : KeepsFlow o s t
  machine  : KeepsMachine s t

/-- The effect of an instruction that computes no result: F.STORE_REG is kept; if it is set, rd receives
some value u, of which nothing is said (R181), unless rd is R0; every other register is as `base` gives it. -/
structure NoResultEffect (rd : Reg) (o : Operand2) (jumped : Bool) (base : Reg → Word) (s t : State) : Prop where
  regs     : ∃ u, ∀ r, t.readReg r = if s.storeReg = true ∧ r = rd ∧ r ≠ .r0 then u else base r
  storeReg : t.storeReg = s.storeReg
  pcHalt   : t.pcHalt = (s.pcHalt || jumped || (s.storeReg && decide (rd = .pc)))
  pcDouble : t.pcDouble = (s.pcDouble || o.isLong)
  carry    : t.carry = s.carry
  machine  : KeepsMachine s t

/-- The registers with SP replaced. -/
def State.regsWithSp (s : State) (v : Word) (r : Reg) : Word := if r = .sp then v else s.readReg r

/-- The registers with PC replaced. -/
def State.regsWithPc (s : State) (v : Word) (r : Reg) : Word := if r = .pc then v else s.readReg r

/-- What a store of n bytes of operand 2 at operand 1 leaves (R104, R105, R106). -/
def StoreLeaves (n : Nat) (rd ra : Reg) (o : Operand2) (s t : State) : Prop :=
  NoResultEffect rd o false s.readReg s t ∧ KeepsFlow o s t ∧
  (∀ k < n, t.byteAt (s.operand1 ra) k = storedByte s.params n (s.operand2 o) k) ∧
  KeepsMemOutside (s.operand1 ra) n s t

/-- What an invalid opcode leaves (43_alu.md R156): P[0] set, F.STORE_REG kept, and 0 in rd if F.STORE_REG was
set. -/
def InvalidLeaves (rd : Reg) (o : Operand2) (s t : State) : Prop :=
  (∀ r, t.readReg r = if s.storeReg = true ∧ r = rd ∧ r ≠ .r0 then 0 else s.readReg r) ∧
  t.pending = s.pending ||| 0x0001#16 ∧ t.storeReg = s.storeReg ∧
  t.pcHalt = (s.pcHalt || (s.storeReg && decide (rd = .pc))) ∧
  t.pcDouble = (s.pcDouble || o.isLong) ∧ t.carry = s.carry ∧ t.mask = s.mask ∧ t.wfi = s.wfi ∧
  t.halt = s.halt ∧ KeepsMem s t ∧ KeepsMachine s t

/-- What the software return leaves of the state before the dispatch (60_exceptions.md R199): PC and SP are back,
PC was written through the port, and R0 to R5, M and P are kept. -/
def ReturnLeaves (s t : State) : Prop :=
  (∀ r, t.readReg r = s.readReg r) ∧ t.pcHalt = true ∧ t.storeReg = true ∧ t.mask = s.mask ∧
  t.pending = s.pending ∧ t.runState = s.runState

/-- The data access of an instruction: its address and its width in bytes (20_memory.md R59). -/
def dataAccess (s : State) : Instr → Option (Word × Nat)
  | .ldb _ ra _ => some (s.operand1 ra, 1)
  | .ldh _ ra _ => some (s.operand1 ra, 2)
  | .ldw _ ra _ => some (s.operand1 ra, 4)
  | .stb _ ra _ => some (s.operand1 ra, 1)
  | .sth _ ra _ => some (s.operand1 ra, 2)
  | .stw _ ra _ => some (s.operand1 ra, 4)
  | .push _ _ _ => some (s.sp, 4)
  | .pop _ _ _ => some (s.sp, 4)
  | .bnz _ _ _ => none
  | .wfi _ _ _ => none
  | .mskw _ _ _ => none
  | .mskr _ _ _ => none
  | .pndw _ _ _ => none
  | .pndr _ _ _ => none
  | .halt _ _ _ => none
  | .invalid0f _ _ _ => none
  | .adc _ _ _ => none
  | .sbc _ _ _ => none
  | .cmp _ _ _ => none
  | .land _ _ _ => none
  | .lor _ _ _ => none
  | .lnot _ _ _ => none
  | .lsr _ _ _ => none
  | .lsl _ _ _ => none
  | .asr _ _ _ => none
  | .ror _ _ _ => none
  | .invalid1a _ _ _ => none
  | .invalid1b _ _ _ => none
  | .invalid1c _ _ _ => none
  | .invalid1d _ _ _ => none
  | .invalid1e _ _ _ => none
  | .invalid1f _ _ _ => none

/-- The instruction raises IFAULT: mode 11, an invalid opcode, or 0x0F with OP_0F_MODE = alu_fault
(60_exceptions.md R190). -/
def raisesFault (p : Config.Params) (i : Instr) : Bool :=
  (instrOperand2 i).isInvalid || decide (26 ≤ (instrFields i).op.toNat) ||
    (decide ((instrFields i).op = 15#5) && decide (p.op0fMode = .aluFault))

/-! ### Safe runs -/

/-- What holds between cycles: memory is canonical; while the core runs, a PC that will be advanced is one
whose window was in memory (the ground of 44_cycle.md R172); HALTED is entered with F.HALT set (R171);
MEMFAULT is entered only under OOB_POLICY = stop (20_memory.md R55). -/
structure State.Inv (s : State) : Prop where
  memory   : Memory.wf s.mem
  pcWindow : s.runState = .running → s.halt = false → s.pcHalt = false → s.pc.toNat ≤ 0xFFFC
  halted   : s.runState = .halted → s.halt = true
  memFault : s.runState = .memFault → s.params.oobPolicy = .stop

/-- This cycle's fetch window is in memory (44_cycle.md R173). -/
abbrev State.windowFits (s : State) : Prop := s.advancedPc.toNat + 4 ≤ Config.memSize

/-- The core is running and F.HALT is clear, so the next step performs a cycle past R171. -/
abbrev State.live (s : State) : Prop := s.runState = .running ∧ s.halt = false

end Sys2Proof.Machine
end

