-- ==== Sys2Proof/Certificates/Slice0/Obligations.lean ====
section
/-!
DEFINITION. The statements for the provers. Each docstring names the rule of spec/ it formalises. A free
value (00_scope.md R17) is never compared with anything: a statement about it holds for every value. The
parameters of 00_scope.md R9 are read from the state (log entry 1), so each statement holds for every value of
them that its hypotheses allow.
-/

open Sys2Proof Sys2Proof.Machine

/-! ### Encoding (30_encoding.md) -/

/-- Decoding the bytes of a well-formed instruction, in either byte order and with anything after them,
gives the instruction and what was after them (R70 to R74, R81, R84). -/
def Obligations.DecodeEncodeRoundTrip : Prop :=
  ∀ (order : Config.ByteOrder) (i : Instr) (rest : List Byte), i.wellFormed = true →
    decode order (encodeBytes order i ++ rest) = .ok i rest

/-- Every window is one well-formed instruction, and encoding it gives back every bit of it: both
halfwords in mode 10, the first one in the other modes (R70, R73, R85). -/
def Obligations.EncodeOfDecodedWindow : Prop :=
  ∀ hi lo : Halfword, (decodeWindow hi lo).wellFormed = true ∧
    encode (decodeWindow hi lo) = if modeField hi = 2#2 then [hi, lo] else [hi]

/-- The opcode row is selected by hi[15:11] alone, rd and ra are hi[10:8] and hi[7:5], and each of these
fields and the mode takes every value in every row (R72, R84, R85). -/
def Obligations.OpcodeSelectedByTopBits : Prop :=
  (∀ hi lo : Halfword,
    (instrFields (decodeWindow hi lo)).op = BitVec.ofNat 5 (hi.toNat / 2 ^ 11) ∧
    (instrFields (decodeWindow hi lo)).rd = regOfBits (BitVec.ofNat 3 (hi.toNat / 2 ^ 8)) ∧
    (instrFields (decodeWindow hi lo)).ra = regOfBits (BitVec.ofNat 3 (hi.toNat / 2 ^ 5))) ∧
  (∀ (op : BitVec 5) (rd ra : Reg) (rb : BitVec 3) (mode : BitVec 2) (lo : Halfword),
    ∃ hi : Halfword, instrFields (decodeWindow hi lo) = ⟨op, rd, ra, decodeOperand2 mode rb lo⟩)

/-- The words of the spec's examples, one or more of each family, decode to the instructions they stand
for (30_encoding.md R74; the hi values of 41_memory_unit.md, 42_flow_control.md, 43_alu.md). -/
def Obligations.SpecExampleWordsDecode : Prop :=
  decode .little [0x42, 0x81, 0x05, 0x00] = .ok (.adc .r1 .r2 (.long 0 5)) [] ∧
  decode .big [0x81, 0x42, 0x00, 0x05] = .ok (.adc .r1 .r2 (.long 0 5)) [] ∧
  decodeWindow 0x183D 0 = .stb .r0 .r1 (.short (-1)) ∧
  decodeWindow 0x3E00 0 = .pop .sp .r0 (.reg .r0) ∧
  decodeWindow 0x4022 0x0100 = .bnz .r0 .r1 (.long 0 256) ∧
  decodeWindow 0x6920 0 = .pndr .r1 .r1 (.reg .r0) ∧
  decodeWindow 0xA323 0 = .lor .r3 .r1 (.invalid 0) ∧
  decodeWindow 0xFB00 0 = .invalid1f .r3 .r0 (.reg .r0)

/-- Operand 2 of a decoded window: in mode 00 the register rb; in mode 01 the field with the pattern
0xFFFFFFF8 when its bit 2 is set, else zero-extended; in mode 10 F.PC_DOUBLE <- 1 and the immediate
sign-extended if its top bit is set, whatever rb (R77, R78, R79). -/
def Obligations.OperandTwoByMode : Prop :=
  ∀ (s : State) (hi lo : Halfword),
    (modeField hi = 0#2 →
      s.operand2 (instrOperand2 (decodeWindow hi lo)) = s.readReg (regOfBits (rbField hi)) ∧
      s.afterDecode (instrOperand2 (decodeWindow hi lo)) = s) ∧
    (modeField hi = 1#2 →
      s.operand2 (instrOperand2 (decodeWindow hi lo)) =
        (if (rbField hi).getLsbD 2 then 0xFFFFFFF8#32 ||| (rbField hi).setWidth 32
          else (rbField hi).setWidth 32) ∧
      s.afterDecode (instrOperand2 (decodeWindow hi lo)) = s) ∧
    (modeField hi = 2#2 →
      s.operand2 (instrOperand2 (decodeWindow hi lo)) =
        (if lo.getLsbD 15 then 0xFFFF0000#32 ||| lo.setWidth 32 else lo.setWidth 32) ∧
      s.afterDecode (instrOperand2 (decodeWindow hi lo)) = { s with pcDouble := true })

/-- Every instruction gives a next state in which the decoder has done its part, whatever the opcode: mode 10 has
set F.PC_DOUBLE and no other mode has, and P[0] is set by mode 11 and by an invalid opcode. Every bit of P is
otherwise kept, but for the one bit that PNDW writes after the decoder (R70, R79, R80, R86, R124). -/
def Obligations.EveryOpcodeDecodesItsMode : Prop :=
  ∀ (i : Instr) (s : State),
    ∃ t, exec i s = .next t ∧ t.pcDouble = (s.pcDouble || (instrOperand2 i).isLong) ∧
      ∀ k < 16, ((instrFields i).op = 12#5 → (s.readReg (instrFields i).ra).toNat ≠ k) →
        t.pending.getLsbD k =
          (if raisesFault s.params i then s.pending ||| 0x0001#16 else s.pending).getLsbD k

/-- After an instruction that does not write PC and does not stop the run, the next cycle fetches past it: 4
bytes further exactly when its mode is 10, else 2 (R70, R88; 44_cycle.md R172). -/
def Obligations.NextFetchIsPastTheInstruction : Prop :=
  ∀ (i : Instr) (s t : State), s.pcHalt = false → s.pcDouble = false → exec i s = .next t →
    t.runState = s.runState → t.pcHalt = false →
    t.advancedPc = s.pc + if (instrOperand2 i).isLong then 4 else 2

/-! ### Registers (10_state.md) -/

/-- R0 is a discard register: reset leaves it 0, a write is dropped, and it reads 0 in every state (R22). -/
def Obligations.DiscardRegisterReadsZero : Prop :=
  State.reset.readReg .r0 = 0 ∧
  ∀ (s : State) (v : Word), s.readReg .r0 = 0 ∧ s.writePort .r0 v = s

/-- The write port of R23, pointwise: a slot other than R0 takes the value, every other slot keeps its own,
and F.PC_HALT is set exactly by a write to PC. -/
def Obligations.RegisterWritePort : Prop :=
  ∀ (s : State) (i r : Reg) (v : Word),
    (s.writePort i v).readReg r = (if r = i ∧ r ≠ .r0 then v else s.readReg r) ∧
    (s.writePort i v).pcHalt = (s.pcHalt || decide (i = .pc))

/-! ### Memory (20_memory.md) -/

/-- A read of n bytes has the value of R58's sum, in either byte order. -/
def Obligations.ReadValueByByteOrder : Prop :=
  ∀ (s : State) (a : Word) (n : Nat), s.memValue a n = s.readSum a n

/-- A write puts R58's bytes of the value at the n addresses and changes no other byte. -/
def Obligations.StoredBytesByByteOrder : Prop :=
  ∀ (s : State) (a : Word) (n : Nat) (v : Word), n ≤ 4 →
    (∀ k < n, (s.memStore a n v).byteAt a k = storedByte s.params n v k) ∧
    KeepsMemOutside a n s (s.memStore a n v)

/-- A read of the bytes just written gives the low 8n bits of the value, in either byte order (R58, R60). -/
def Obligations.StoreThenReadGivesValue : Prop :=
  ∀ (s : State) (a : Word) (n : Nat) (v : Word), n ≤ 4 →
    (s.memStore a n v).memValue a n = v.toNat % 2 ^ (8 * n)

/-- With little-endian order, after a word store at a: a byte read at a gives bits 7:0, and a halfword read
at a + 2 gives bits 31:16 (R58). -/
def Obligations.LittleEndianMixedWidths : Prop :=
  ∀ (s : State) (a v : Word), s.params.byteOrder = .little → a.toNat + 4 ≤ 65536 →
    (s.memStore a 4 v).memValue a 1 = (v.extractLsb' 0 8).toNat ∧
    (s.memStore a 4 v).memValue (a + 2) 2 = (v.extractLsb' 16 16).toNat

/-- A halfword stored where the next cycle fetches is the first halfword that cycle sees, and one stored two
bytes further is the second and leaves the first as it was (R65, 30_encoding.md R71). -/
def Obligations.FetchSeesEarlierStores : Prop :=
  ∀ (s : State) (v : Word), s.windowFits →
    (s.memStore s.advancedPc 2 v).acceptRequests.beginCycle.fetchHi = v.setWidth 16 ∧
    (s.memStore (s.advancedPc + 2) 2 v).acceptRequests.beginCycle.fetchLo = v.setWidth 16 ∧
    (s.memStore (s.advancedPc + 2) 2 v).acceptRequests.beginCycle.fetchHi = s.acceptRequests.beginCycle.fetchHi

/-! ### Memory unit (41_memory_unit.md) -/

/-- LDB, LDH, LDW complete when the access is allowed: rd receives the 1, 2 or 4 bytes at operand 1 widened
with zeros, F.STORE_REG is set, and memory, C and every other register are kept (R101, R102, R103). -/
def Obligations.LoadsWidenWithZeros : Prop :=
  ∀ (rd ra : Reg) (o : Operand2) (s : State),
    (s.accessAllowed (s.operand1 ra) 1 = true → ∃ t, exec (.ldb rd ra o) s = .next t ∧
      ResultEffect rd o (BitVec.ofNat 32 (s.readSum (s.operand1 ra) 1)) s.readReg s t ∧
      t.carry = s.carry ∧ KeepsMem s t) ∧
    (s.accessAllowed (s.operand1 ra) 2 = true → ∃ t, exec (.ldh rd ra o) s = .next t ∧
      ResultEffect rd o (BitVec.ofNat 32 (s.readSum (s.operand1 ra) 2)) s.readReg s t ∧
      t.carry = s.carry ∧ KeepsMem s t) ∧
    (s.accessAllowed (s.operand1 ra) 4 = true → ∃ t, exec (.ldw rd ra o) s = .next t ∧
      ResultEffect rd o (BitVec.ofNat 32 (s.readSum (s.operand1 ra) 4)) s.readReg s t ∧
      t.carry = s.carry ∧ KeepsMem s t)

/-- STB, STH, STW complete when the access is allowed: the low 1, 2 or 4 bytes of operand 2 are at operand 1,
every other byte is kept, and nothing else changes but what the decoder and a sticky F.STORE_REG do (R104,
R105, R106; 44_cycle.md R182). -/
def Obligations.StoresWriteLowBytes : Prop :=
  ∀ (rd ra : Reg) (o : Operand2) (s : State),
    (s.accessAllowed (s.operand1 ra) 1 = true →
      ∃ t, exec (.stb rd ra o) s = .next t ∧ StoreLeaves 1 rd ra o s t) ∧
    (s.accessAllowed (s.operand1 ra) 2 = true →
      ∃ t, exec (.sth rd ra o) s = .next t ∧ StoreLeaves 2 rd ra o s t) ∧
    (s.accessAllowed (s.operand1 ra) 4 = true →
      ∃ t, exec (.stw rd ra o) s = .next t ∧ StoreLeaves 4 rd ra o s t)

/-- PUSH completes when the access is allowed: operand 2 is at the current SP, SP is 4 greater (unless a
sticky F.STORE_REG writes rd = SP), every byte outside those four is kept (R107). -/
def Obligations.PushWritesAtSpThenGrows : Prop :=
  ∀ (rd ra : Reg) (o : Operand2) (s : State), s.accessAllowed s.sp 4 = true →
    ∃ t, exec (.push rd ra o) s = .next t ∧
      NoResultEffect rd o false (s.regsWithSp (s.sp + 4)) s t ∧ KeepsFlow o s t ∧
      (∀ k < 4, t.byteAt s.sp k = storedByte s.params 4 (s.operand2 o) k) ∧ KeepsMemOutside s.sp 4 s t

/-- POP completes when the access is allowed: rd receives the word at the current SP, SP is 4 less unless rd
is SP, memory is kept (R108). -/
def Obligations.PopReadsAtSpThenShrinks : Prop :=
  ∀ (rd ra : Reg) (o : Operand2) (s : State), s.accessAllowed s.sp 4 = true →
    ∃ t, exec (.pop rd ra o) s = .next t ∧
      ResultEffect rd o (BitVec.ofNat 32 (s.readSum s.sp 4)) (s.regsWithSp (s.sp - 4)) s t ∧
      t.carry = s.carry ∧ KeepsMem s t

/-- With OOB_POLICY = stop, an instruction whose data access has a byte past 0xFFFF ends the run in MEMFAULT:
memory, the registers, C, M and every flag but the decoder's F.PC_DOUBLE are kept, and the decoder's IFAULT
stays pending (R55; 60_exceptions.md R207). The stop is the spec's decision D4. -/
def Obligations.OutOfRangeAccessStopsTheRun : Prop :=
  ∀ (i : Instr) (s : State) (a : Word) (n : Nat), dataAccess s i = some (a, n) →
    s.params.oobPolicy = .stop → 65536 < a.toNat + n →
    ∃ t, exec i s = .next t ∧ t.runState = .memFault ∧ t.mem = s.mem ∧
      (∀ r, t.readReg r = s.readReg r) ∧ t.storeReg = s.storeReg ∧ t.pcHalt = s.pcHalt ∧
      t.pcDouble = (s.pcDouble || (instrOperand2 i).isLong) ∧ t.carry = s.carry ∧
      KeepsFlow (instrOperand2 i) s t ∧ t.params = s.params ∧ t.requests = s.requests

/-- An instruction enters MEMFAULT only through a data access past 0xFFFF under OOB_POLICY = stop; an
instruction without one always goes on (R55; 60_exceptions.md R191). -/
def Obligations.OnlyOutOfRangeAccessStops : Prop :=
  ∀ (i : Instr) (s : State),
    (∀ a n, dataAccess s i = some (a, n) → s.params.oobPolicy = .wrap ∨ a.toNat + n ≤ 65536) →
    ∃ t, exec i s = .next t ∧ t.runState = s.runState

/-- PUSH and then POP: SP is where it was, and rd holds the word 4 bytes above the pushed one, not the
pushed value (R108, 70_reset_and_hazards.md R233, 90_conflicts.md C3). -/
def Obligations.PushThenPopReadsTheWordAbove : Prop :=
  ∀ (rd ra ra' : Reg) (o o' : Operand2) (s : State), s.sp.toNat + 8 ≤ 65536 → rd ≠ .r0 → rd ≠ .sp →
    ∃ t u, exec (.push .r0 ra o) s = .next t ∧ exec (.pop rd ra' o') t = .next u ∧
      u.sp = s.sp ∧ u.readReg rd = BitVec.ofNat 32 (s.readSum (s.sp + 4) 4)

/-! ### Flow-control unit (42_flow_control.md) -/

/-- BNZ completes: with a nonzero operand 1, PC is operand 2 and F.PC_HALT is set; with zero, neither
changes; nothing else changes but what the decoder and a sticky F.STORE_REG do (R120). -/
def Obligations.BranchTakenOrNot : Prop :=
  ∀ (rd ra : Reg) (o : Operand2) (s : State),
    ∃ t, exec (.bnz rd ra o) s = .next t ∧
      NoResultEffect rd o (decide (s.readReg ra ≠ 0))
        (s.regsWithPc (if s.readReg ra ≠ 0 then s.operand2 o else s.pc)) s t ∧
      KeepsFlow o s t ∧ KeepsMem s t

/-- WFI sets F.WFI and HALT sets F.HALT; each completes and changes nothing else but what the decoder and a
sticky F.STORE_REG do (R121, R126). -/
def Obligations.WaitAndHaltSetTheirFlag : Prop :=
  ∀ (rd ra : Reg) (o : Operand2) (s : State),
    (∃ t, exec (.wfi rd ra o) s = .next t ∧ NoResultEffect rd o false s.readReg s t ∧ KeepsMem s t ∧
      t.wfi = true ∧ t.halt = s.halt ∧ t.mask = s.mask ∧ t.pending = decodedPending s o) ∧
    (∃ t, exec (.halt rd ra o) s = .next t ∧ NoResultEffect rd o false s.readReg s t ∧ KeepsMem s t ∧
      t.halt = true ∧ t.wfi = s.wfi ∧ t.mask = s.mask ∧ t.pending = decodedPending s o)

/-- MSKW and PNDW complete: bit op1 of M or P becomes (op2 nonzero), every other bit is kept, an index of 16
or more writes no bit, and nothing else changes but what the decoder and a sticky F.STORE_REG do (R122,
R124, R128). -/
def Obligations.MaskAndPendingBitWrites : Prop :=
  ∀ (rd ra : Reg) (o : Operand2) (s : State),
    (∃ t, exec (.mskw rd ra o) s = .next t ∧ NoResultEffect rd o false s.readReg s t ∧ KeepsMem s t ∧
      (∀ k < 16, t.mask.getLsbD k =
        if (s.readReg ra).toNat = k then decide (s.operand2 o ≠ 0) else s.mask.getLsbD k) ∧
      t.pending = decodedPending s o ∧ t.wfi = s.wfi ∧ t.halt = s.halt) ∧
    (∃ t, exec (.pndw rd ra o) s = .next t ∧ NoResultEffect rd o false s.readReg s t ∧ KeepsMem s t ∧
      (∀ k < 16, t.pending.getLsbD k =
        if (s.readReg ra).toNat = k then decide (s.operand2 o ≠ 0) else (decodedPending s o).getLsbD k) ∧
      t.mask = s.mask ∧ t.wfi = s.wfi ∧ t.halt = s.halt)

/-- MSKR and PNDR complete: the result is the bit as 0 or 1, from M, or from P for PNDR with OP_0D_MODE =
read_pending; an index of 16 or more reads 0 (R123, R125, R128). -/
def Obligations.MaskAndPendingBitReads : Prop :=
  ∀ (rd ra : Reg) (o : Operand2) (s : State),
    (∃ t, exec (.mskr rd ra o) s = .next t ∧ t.carry = s.carry ∧ KeepsMem s t ∧
      ResultEffect rd o
        (if (s.readReg ra).toNat < 16 ∧ s.mask.getLsbD (s.readReg ra).toNat = true then 1 else 0) s.readReg s t) ∧
    (s.params.op0dMode = .readMask → ∃ t, exec (.pndr rd ra o) s = .next t ∧ t.carry = s.carry ∧ KeepsMem s t ∧
      ResultEffect rd o
        (if (s.readReg ra).toNat < 16 ∧ s.mask.getLsbD (s.readReg ra).toNat = true then 1 else 0) s.readReg s t) ∧
    (s.params.op0dMode = .readPending → ∃ t, exec (.pndr rd ra o) s = .next t ∧ t.carry = s.carry ∧ KeepsMem s t ∧
      ResultEffect rd o
        (if (s.readReg ra).toNat < 16 ∧ (decodedPending s o).getLsbD (s.readReg ra).toNat = true then 1 else 0)
        s.readReg s t)

/-- The invalid opcodes 0x1A to 0x1F, and 0x0F with OP_0F_MODE = alu_fault, complete: result 0, IFAULT raised,
F.STORE_REG not set (43_alu.md R156, 42_flow_control.md R127). -/
def Obligations.InvalidOpcodesRaiseFault : Prop :=
  ∀ (rd ra : Reg) (o : Operand2) (s : State),
    (∀ i ∈ [Instr.invalid1a rd ra o, .invalid1b rd ra o, .invalid1c rd ra o, .invalid1d rd ra o,
        .invalid1e rd ra o, .invalid1f rd ra o],
      ∃ t, exec i s = .next t ∧ InvalidLeaves rd o s t) ∧
    (s.params.op0fMode = .aluFault → ∃ t, exec (.invalid0f rd ra o) s = .next t ∧ InvalidLeaves rd o s t)

/-- With OP_0F_MODE = flow_nop, opcode 0x0F completes and does nothing but what the decoder and a sticky
F.STORE_REG do (42_flow_control.md R127, 70_reset_and_hazards.md R230). -/
def Obligations.OpcodeFifteenAsNoOperation : Prop :=
  ∀ (rd ra : Reg) (o : Operand2) (s : State), s.params.op0fMode = .flowNop →
    ∃ t, exec (.invalid0f rd ra o) s = .next t ∧ NoResultEffect rd o false s.readReg s t ∧
      KeepsFlow o s t ∧ KeepsMem s t

/-! ### ALU (43_alu.md) -/

/-- ADC completes: the result is the low 32 bits of op1 + op2 + C, and C becomes bit 32 of that sum. Under
mode 11 nothing is said of the new C, which is a draw of its own (R140, log entry 4). -/
def Obligations.AddWithCarry : Prop :=
  ∀ (rd ra : Reg) (o : Operand2) (s : State),
    ∃ t, exec (.adc rd ra o) s = .next t ∧ KeepsMem s t ∧
      ResultEffect rd o (s.readReg ra + s.operand2 o + if s.carry then 1 else 0) s.readReg s t ∧
      (o.isInvalid = false → t.carry =
        decide (2 ^ 32 ≤ (s.readReg ra).toNat + (s.operand2 o).toNat + if s.carry then 1 else 0))

/-- SBC completes: C is read as a borrow, so the result is op1 - op2 - C, and C becomes 1 exactly when no
borrow occurred: op1 ≥ op2 with C = 0, op1 > op2 with C = 1. Under mode 11 nothing is said of the new C
(R141, R153, log entry 4). -/
def Obligations.SubtractWithBorrow : Prop :=
  ∀ (rd ra : Reg) (o : Operand2) (s : State),
    ∃ t, exec (.sbc rd ra o) s = .next t ∧ KeepsMem s t ∧
      ResultEffect rd o (s.readReg ra - s.operand2 o - if s.carry then 1 else 0) s.readReg s t ∧
      (o.isInvalid = false → t.carry =
        if s.carry then decide ((s.operand2 o).toNat < (s.readReg ra).toNat)
        else decide ((s.operand2 o).toNat ≤ (s.readReg ra).toNat))

/-- ADC chains through C: an ADC of the low words and then one of the high words gives the 64-bit sum with
the carry in, and C its bit 64 (R140, R153). -/
def Obligations.AddChainsThroughCarry : Prop :=
  ∀ (dLo dHi aLo aHi bLo bHi : Reg) (s : State),
    dLo ≠ .r0 → dHi ≠ .r0 → dHi ≠ dLo → aHi ≠ dLo → bHi ≠ dLo →
    ∃ t u, exec (.adc dLo aLo (.reg bLo)) s = .next t ∧ exec (.adc dHi aHi (.reg bHi)) t = .next u ∧
      (if u.carry then 2 ^ 64 else 0) + (u.readReg dHi).toNat * 2 ^ 32 + (u.readReg dLo).toNat =
        ((s.readReg aHi).toNat * 2 ^ 32 + (s.readReg aLo).toNat) +
        ((s.readReg bHi).toNat * 2 ^ 32 + (s.readReg bLo).toNat) + (if s.carry then 1 else 0)

/-- CMP completes: the result is 1, 0 or all ones as op1 is greater than, equal to or less than op2, both
unsigned; C is kept (R142). -/
def Obligations.CompareIsUnsigned : Prop :=
  ∀ (rd ra : Reg) (o : Operand2) (s : State),
    ∃ t v, exec (.cmp rd ra o) s = .next t ∧ ResultEffect rd o v s.readReg s t ∧ KeepsMem s t ∧
      t.carry = s.carry ∧
      ((s.operand2 o).toNat < (s.readReg ra).toNat → v = 0x00000001#32) ∧
      ((s.readReg ra).toNat = (s.operand2 o).toNat → v = 0x00000000#32) ∧
      ((s.readReg ra).toNat < (s.operand2 o).toNat → v = 0xFFFFFFFF#32)

/-- CMP(a, b) is 1 exactly when CMP(b, a) is all ones, and it is nonzero exactly when the operands differ, so
it feeds BNZ as a not-equal test (R142). -/
def Obligations.CompareIsAntisymmetric : Prop :=
  ∀ (rd ra rb : Reg) (s : State), rd ≠ .r0 →
    ∃ t u, exec (.cmp rd ra (.reg rb)) s = .next t ∧ exec (.cmp rd rb (.reg ra)) s = .next u ∧
      (t.readReg rd = 1 ↔ u.readReg rd = 0xFFFFFFFF#32) ∧
      (t.readReg rd ≠ 0 ↔ s.readReg ra ≠ s.readReg rb)

/-- AND, OR and NOT complete, bit by bit; NOT ignores operand 2; C is kept (R143, R144, R145). -/
def Obligations.LogicIsBitwise : Prop :=
  ∀ (rd ra : Reg) (o : Operand2) (s : State),
    (∃ t v, exec (.land rd ra o) s = .next t ∧ ResultEffect rd o v s.readReg s t ∧ KeepsMem s t ∧
      t.carry = s.carry ∧
      ∀ k < 32, v.getLsbD k = ((s.readReg ra).getLsbD k && (s.operand2 o).getLsbD k)) ∧
    (∃ t v, exec (.lor rd ra o) s = .next t ∧ ResultEffect rd o v s.readReg s t ∧ KeepsMem s t ∧
      t.carry = s.carry ∧
      ∀ k < 32, v.getLsbD k = ((s.readReg ra).getLsbD k || (s.operand2 o).getLsbD k)) ∧
    (∃ t v, exec (.lnot rd ra o) s = .next t ∧ ResultEffect rd o v s.readReg s t ∧ KeepsMem s t ∧
      t.carry = s.carry ∧ ∀ k < 32, v.getLsbD k = !(s.readReg ra).getLsbD k)

/-- LSR, LSL and ASR complete: with an amount taken modulo 32 (SHIFT_POLICY = mask31, or an amount below 32)
the result is op1 / 2^n, op1 * 2^n modulo 2^32, and the signed op1 / 2^n rounded down; with SHIFT_POLICY =
saturate and an amount of 32 or more it is 0, 0, and the sign fill; C is kept (R146, R147, R148, R150). -/
def Obligations.ShiftsByPowersOfTwo : Prop :=
  ∀ (rd ra : Reg) (o : Operand2) (s : State),
    (∃ t v, exec (.lsr rd ra o) s = .next t ∧ ResultEffect rd o v s.readReg s t ∧ KeepsMem s t ∧
      t.carry = s.carry ∧
      v = if s.params.shiftPolicy = .saturate ∧ 32 ≤ (s.operand2 o).toNat then 0
          else BitVec.ofNat 32 ((s.readReg ra).toNat / 2 ^ ((s.operand2 o).toNat % 32))) ∧
    (∃ t v, exec (.lsl rd ra o) s = .next t ∧ ResultEffect rd o v s.readReg s t ∧ KeepsMem s t ∧
      t.carry = s.carry ∧
      v = if s.params.shiftPolicy = .saturate ∧ 32 ≤ (s.operand2 o).toNat then 0
          else BitVec.ofNat 32 ((s.readReg ra).toNat * 2 ^ ((s.operand2 o).toNat % 32))) ∧
    (∃ t v, exec (.asr rd ra o) s = .next t ∧ ResultEffect rd o v s.readReg s t ∧ KeepsMem s t ∧
      t.carry = s.carry ∧
      v = if s.params.shiftPolicy = .saturate ∧ 32 ≤ (s.operand2 o).toNat then
            (if (s.readReg ra).getLsbD 31 then 0xFFFFFFFF#32 else 0)
          else BitVec.ofInt 32 ((s.readReg ra).toInt / 2 ^ ((s.operand2 o).toNat % 32)))

/-- ROR completes: bit k of the result is bit (k + op2) mod 32 of op1, under either policy; C is kept (R149,
R150). -/
def Obligations.RotateMovesEveryBit : Prop :=
  ∀ (rd ra : Reg) (o : Operand2) (s : State),
    ∃ t v, exec (.ror rd ra o) s = .next t ∧ ResultEffect rd o v s.readReg s t ∧ KeepsMem s t ∧
      t.carry = s.carry ∧
      ∀ k < 32, v.getLsbD k = (s.readReg ra).getLsbD ((k + (s.operand2 o).toNat) % 32)

/-- Every valid ALU operation sets F.STORE_REG and the fault path leaves it as it was; every instruction but
ADC and SBC leaves C unchanged and does not read it: run with another C, it does the same (R155). -/
def Obligations.OnlyAdcAndSbcUseCarry : Prop :=
  (∀ (i : Instr) (s t : State), 16 ≤ (instrFields i).op.toNat → exec i s = .next t →
    t.storeReg = if (instrFields i).op.toNat < 26 then true else s.storeReg) ∧
  (∀ (i : Instr) (s t : State) (c : Bool), (instrFields i).op ≠ 16#5 → (instrFields i).op ≠ 17#5 →
    exec i s = .next t → t.carry = s.carry ∧ exec i { s with carry := c } = .next { t with carry := c })

/-! ### The cycle (44_cycle.md) -/

/-- A step runs the decoded instruction. When the core is running with F.HALT clear, the window is in memory,
no enabled interrupt is pending after the external requests of this cycle, F.WFI is clear, and the bytes at
the fetch address decode to i: the step is exec of i, at the state whose PC has been advanced, whose
single-shot flags have been cleared, and which notes i for the host (R176, R179, R180; the note is a field of
the model's own, log entry 9). -/
def Obligations.StepRunsTheDecodedInstruction : Prop :=
  ∀ (s : State) (i : Instr) (rest : List Byte), s.live → s.windowFits →
    s.acceptRequests.mask &&& s.acceptRequests.pending = 0 → s.wfi = false → i.wellFormed = true →
    decode s.params.byteOrder (Memory.readFrom s.mem s.advancedPc.toNat 0 4) = .ok i rest →
    step s = exec i (s.acceptRequests.beginCycle.noteDecoded i)

/-- What the beginning of a cycle leaves: PC advanced by 4 if F.PC_DOUBLE was set, else by 2, unless
F.PC_HALT was set; then both single-shot flags clear, F.STORE_REG kept when sticky and cleared when strict;
every other register, flag and byte of memory kept but F.HALT, which the guard may set (R172, R173, R174). -/
def Obligations.BeginningOfACycle : Prop :=
  ∀ s : State,
    s.beginCycle.pc = (if s.pcHalt then s.pc else if s.pcDouble then s.pc + 4 else s.pc + 2) ∧
    s.beginCycle.pcHalt = false ∧ s.beginCycle.pcDouble = false ∧
    s.beginCycle.storeReg = (s.storeReg && decide (s.params.storeRegMode = .sticky)) ∧
    s.beginCycle.halt = (s.halt || decide (65536 < s.beginCycle.pc.toNat + 4)) ∧
    s.beginCycle = { s with pc := s.beginCycle.pc, pcHalt := false, pcDouble := false,
                            storeReg := s.beginCycle.storeReg, halt := s.beginCycle.halt }

/-- A cycle that begins with F.HALT set enters HALTED and does nothing else: no advance, no fetch, no dispatch
(R171). That a request set of the schedule is taken before such a cycle too is the model's choice (log entry 7);
with EXT_IRQ = none there is none, and only the run state changes. -/
def Obligations.HaltFlagStopsTheRun : Prop :=
  ∀ s : State, s.runState = .running → s.halt = true →
    step s = .next { s.acceptRequests with runState := .halted } ∧
    (s.params.extIrq = .absent → step s = .next { s with runState := .halted })

/-- In HALTED and in MEMFAULT no cycle runs: the step says so by name and gives no next state (R36). That it
answers a fault rather than the same state again is the model's choice (log entry 5). -/
def Obligations.TerminalRunStatesRunNoCycle : Prop :=
  ∀ s : State,
    (s.runState = .halted → ∀ t, step s ≠ .next t) ∧ (s.runState = .memFault → ∀ t, step s ≠ .next t) ∧
    (s.runState = .halted → step s = .fault .halted) ∧ (s.runState = .memFault → step s = .fault .memFault)

/-- The end of memory is a normal halt: a window that would pass it sets F.HALT without fetch or evaluation,
keeps PC where the advance left it, and the next step is HALTED (R173, R184; the decisions D5 and D6). -/
def Obligations.EndOfMemoryHalts : Prop :=
  ∀ s : State, s.live → s.params.extIrq = .absent → ¬ s.windowFits →
    ∃ t, step s = .next t ∧ t.halt = true ∧ t.pc = s.advancedPc ∧ t.mem = s.mem ∧
      (∀ r, r ≠ .pc → t.readReg r = s.readReg r) ∧ t.runState = .running ∧
      t.pcHalt = false ∧ t.pcDouble = false ∧ t.carry = s.carry ∧ t.mask = s.mask ∧ t.pending = s.pending ∧
      step t = .next { t with runState := .halted }

/-- A parked cycle executes nothing: with WFI_MODE = advance it is the beginning of a cycle and nothing more;
with freeze it also sets F.PC_HALT (R178). -/
def Obligations.ParkedCycleExecutesNothing : Prop :=
  ∀ s : State, s.live → s.windowFits → s.wfi = true →
    s.acceptRequests.mask &&& s.acceptRequests.pending = 0 →
    (s.params.wfiMode = .advance → step s = .next s.acceptRequests.beginCycle) ∧
    (s.params.wfiMode = .freeze → step s = .next { s.acceptRequests.beginCycle with pcHalt := true })

/-! ### Interrupts (60_exceptions.md) -/

/-- The interrupt check is the evaluator's first step: in a cycle that reaches it with an enabled line
pending, dispatch happens and nothing else, parked or not. A cycle that stops at F.HALT or ends at the guard
does not dispatch (R194). The lines pending are those after the request set of this step is taken, also where the
cycle only enters HALTED, which is the model's choice (log entry 7). -/
def Obligations.InterruptCheckComesFirst : Prop :=
  ∀ s : State, s.runState = .running → s.acceptRequests.mask &&& s.acceptRequests.pending ≠ 0 →
    (s.halt = false → s.windowFits → step s = .next s.acceptRequests.beginCycle.dispatch) ∧
    (s.halt = true → step s = .next { s.acceptRequests with runState := .halted }) ∧
    (s.halt = false → ¬ s.windowFits → step s = .next s.acceptRequests.beginCycle)

/-- Dispatch: PC is pushed as a 32-bit value at the current SP, SP moves by 4 in the direction of
DISPATCH_SP_MODE, PC is the handler entry, F.PC_HALT is set and F.WFI cleared; M, P, C, F.STORE_REG, F.HALT
and R0 to R5 are kept, and so is every byte outside the pushed four. A push that is not allowed stops in
MEMFAULT and changes nothing else (R196). -/
def Obligations.DispatchSavesPcAndEntersHandler : Prop :=
  ∀ s : State,
    (s.accessAllowed s.sp 4 = true →
      (∀ k < 4, s.dispatch.byteAt s.sp k = storedByte s.params 4 s.pc k) ∧
      KeepsMemOutside s.sp 4 s s.dispatch ∧
      (s.params.dispatchSpMode = .decrement → s.dispatch.sp = s.sp - 4) ∧
      (s.params.dispatchSpMode = .increment → s.dispatch.sp = s.sp + 4) ∧
      s.dispatch.pc.toNat = s.params.irqVector.val ∧ s.dispatch.pcHalt = true ∧ s.dispatch.wfi = false ∧
      s.dispatch.mask = s.mask ∧ s.dispatch.pending = s.pending ∧ s.dispatch.carry = s.carry ∧
      s.dispatch.storeReg = s.storeReg ∧ s.dispatch.halt = s.halt ∧ s.dispatch.pcDouble = s.pcDouble ∧
      (∀ r, r ≠ .sp → r ≠ .pc → s.dispatch.readReg r = s.readReg r) ∧ KeepsMachine s s.dispatch) ∧
    (s.accessAllowed s.sp 4 = false → s.dispatch = { s with runState := .memFault })

/-- An instruction that raises IFAULT completes: its step is the next state that its own execution gives, and it
leaves P[0] set. If M[0] is set, the core still runs and the window is in memory, the next cycle dispatches, and
the PC it saves is the address that follows the instruction: 2 further, 4 with mode 10, or where the instruction
itself sent PC. An MSKW or PNDW whose bit index is 0 writes M[0] or P[0] itself, so only its completion is said
(R192, R197). -/
def Obligations.FaultIsTakenNextCycle : Prop :=
  ∀ (s : State) (i : Instr), s.live → s.params.extIrq = .absent → s.windowFits → s.wfi = false →
    s.mask &&& s.pending = 0 → s.beginCycle.fetched = i → raisesFault s.params i = true →
    ∃ t, step s = .next t ∧ exec i (s.beginCycle.noteDecoded i) = .next t ∧
      (((instrFields i).op = 10#5 ∨ (instrFields i).op = 12#5 →
          s.beginCycle.readReg (instrFields i).ra ≠ 0) →
        t.pending.getLsbD 0 = true ∧
        (s.mask.getLsbD 0 = true → t.live → t.windowFits →
          step t = .next t.beginCycle.dispatch ∧
          t.beginCycle.pc =
            if t.pcHalt then t.pc else s.advancedPc + (if (instrOperand2 i).isLong then 4 else 2)))

/-- The software return, executed in turn after a dispatch: `CLC; ADC SP, SP, #4; LDW PC, [SP]` with
DISPATCH_SP_MODE = decrement, `CLC; SBC SP, SP, #4; LDW PC, [SP]` with increment. Each puts back the PC and the SP
of before the dispatch, F.PC_HALT is set by the write of PC, F.STORE_REG is left set, and R0 to R5, M and P are
kept (R199; by R200 no handler instruction runs while the line stays enabled and pending). -/
def Obligations.SoftwareReturnRestoresPcAndSp : Prop :=
  ∀ s : State, s.accessAllowed s.sp 4 = true →
    (s.params.dispatchSpMode = .decrement →
      ∃ t u v, exec (.adc .r0 .r0 (.reg .r0)) s.dispatch = .next t ∧
        exec (.adc .sp .sp (.long 0 4)) t = .next u ∧ exec (.ldw .pc .sp (.reg .r0)) u = .next v ∧
        ReturnLeaves s v) ∧
    (s.params.dispatchSpMode = .increment →
      ∃ t u v, exec (.adc .r0 .r0 (.reg .r0)) s.dispatch = .next t ∧
        exec (.sbc .sp .sp (.long 0 4)) t = .next u ∧ exec (.ldw .pc .sp (.reg .r0)) u = .next v ∧
        ReturnLeaves s v)

/-- External requests: with EXT_IRQ = present a step first sets the bits of the next request set in P, and
clears none; with EXT_IRQ = none they are not read (R198; the schedule as a list is the model's, log entry
7). -/
def Obligations.ExternalRequestsOnlySetBits : Prop :=
  ∀ s : State, s.runState = .running →
    (s.params.extIrq = .absent → step s = cycle s) ∧
    (s.params.extIrq = .present → s.requests = [] → step s = cycle s) ∧
    (∀ r rs, s.params.extIrq = .present → s.requests = r :: rs →
      step s = cycle { s with pending := s.pending ||| r, requests := rs })

/-- Once an enabled line is pending, the core dispatches in every cycle. With DISPATCH_SP_MODE = decrement,
OOB_POLICY = stop and SP = S ≤ 0xFFFC, exactly floor(S/4) + 1 dispatches succeed, each leaving M and P as
they were, and the next step stops in MEMFAULT with SP = 0xFFFFFFFC + (S mod 4) (R200, 90_conflicts.md C5). -/
def Obligations.EndlessDispatchExhaustsTheStack : Prop :=
  ∀ s : State, s.live → s.windowFits → s.params.extIrq = .absent → s.params.oobPolicy = .stop →
    s.params.dispatchSpMode = .decrement → s.mask &&& s.pending ≠ 0 → s.sp.toNat ≤ 0xFFFC →
    (∀ k, k ≤ s.sp.toNat / 4 → ∃ t, Host.Core.run Sys2Proof.core (k + 1) s = .next t ∧
      t.runState = .running ∧ t.halt = false ∧ t.pc.toNat = s.params.irqVector.val ∧
      t.sp = s.sp - BitVec.ofNat 32 (4 * (k + 1)) ∧ t.mask = s.mask ∧ t.pending = s.pending) ∧
    (∃ t, Host.Core.run Sys2Proof.core (s.sp.toNat / 4 + 2) s = .next t ∧ t.runState = .memFault ∧
      t.sp = BitVec.ofNat 32 (0xFFFFFFFC + s.sp.toNat % 4))

/-- Parked with nothing enabled pending and no external requester, WFI_MODE = advance: PC runs forward by 2 a
cycle with nothing else executed, and the run ends HALTED past the end of memory (R203, 70_reset_and_hazards.md
R232). -/
def Obligations.AdvancingWaitRunsToTheEnd : Prop :=
  ∀ s : State, s.live → s.windowFits → s.params.extIrq = .absent → s.params.wfiMode = .advance →
    s.wfi = true → s.mask &&& s.pending = 0 →
    (∀ k, s.advancedPc.toNat + 2 * k ≤ 0xFFFC → ∃ t, Host.Core.run Sys2Proof.core (k + 1) s = .next t ∧
      t.pc.toNat = s.advancedPc.toNat + 2 * k ∧ t.runState = .running ∧ t.halt = false ∧ t.wfi = true ∧
      t.mem = s.mem ∧ ∀ r, r ≠ .pc → t.readReg r = s.readReg r) ∧
    (∃ k t, Host.Core.run Sys2Proof.core k s = .next t ∧ t.runState = .halted ∧ 0xFFFC < t.pc.toNat)

/-- Parked with nothing enabled pending and no external requester, WFI_MODE = freeze: the core repeats at the
same PC for ever and executes nothing (R203, R185). -/
def Obligations.FrozenWaitNeverEnds : Prop :=
  ∀ (s : State) (k : Nat), s.live → s.windowFits → s.params.extIrq = .absent → s.params.wfiMode = .freeze →
    s.wfi = true → s.mask &&& s.pending = 0 →
    ∃ t, Host.Core.run Sys2Proof.core (k + 1) s = .next t ∧ t.pc = s.advancedPc ∧ t.runState = .running ∧
      t.halt = false ∧ t.wfi = true ∧ t.mem = s.mem ∧ ∀ r, r ≠ .pc → t.readReg r = s.readReg r

/-! ### Rules of the whole machine -/

/-- A pending bit is cleared only by software: if a step clears bit k of P, the instruction it ran is PNDW
with bit index k (10_state.md R34, 60_exceptions.md R193). -/
def Obligations.PendingClearedOnlyByPndw : Prop :=
  ∀ (s t : State) (k : Nat), step s = .next t → s.pending.getLsbD k = true → t.pending.getLsbD k = false →
    ∃ rd ra o, s.acceptRequests.beginCycle.fetched = .pndw rd ra o ∧
      (s.acceptRequests.beginCycle.readReg ra).toNat = k

/-- Who writes the control bits in a step: M changes only where MSKW runs, C only where ADC or SBC runs; F.WFI is
set only by WFI and cleared only by a dispatch; F.HALT is set only by HALT or by the end-of-memory guard and never
cleared; no step changes the parameters (10_state.md R30 to R33, R38). -/
def Obligations.ControlBitsHaveFewWriters : Prop :=
  ∀ s t : State, step s = .next t →
    (t.mask ≠ s.mask → ∃ rd ra o, s.acceptRequests.beginCycle.fetched = .mskw rd ra o) ∧
    (t.carry ≠ s.carry → ∃ rd ra o, s.acceptRequests.beginCycle.fetched = .adc rd ra o ∨
      s.acceptRequests.beginCycle.fetched = .sbc rd ra o) ∧
    (s.wfi = false → t.wfi = true → ∃ rd ra o, s.acceptRequests.beginCycle.fetched = .wfi rd ra o) ∧
    (s.wfi = true → t.wfi = false → t = s.acceptRequests.beginCycle.dispatch) ∧
    (s.halt = false → t.halt = true →
      ¬ s.windowFits ∨ ∃ rd ra o, s.acceptRequests.beginCycle.fetched = .halt rd ra o) ∧
    (s.halt = true → t.halt = true) ∧ t.params = s.params

/-- With STORE_REG_MODE = sticky, nothing clears F.STORE_REG: once set, it is set after every step (10_state.md
R29). -/
def Obligations.StickyStoreRegIsNeverCleared : Prop :=
  ∀ s t : State, s.params.storeRegMode = .sticky → s.storeReg = true → step s = .next t → t.storeReg = true

/-- PC changes during an instruction only through a taken branch or a writeback to PC, and then F.PC_HALT is
set (10_state.md R25, R27). -/
def Obligations.PcWrittenOnlyByBranchOrWriteback : Prop :=
  ∀ (i : Instr) (s t : State), exec i s = .next t → t.pc ≠ s.pc →
    t.pcHalt = true ∧
    (((instrFields i).op = 8#5 ∧ s.readReg (instrFields i).ra ≠ 0) ∨
      ((instrFields i).rd = .pc ∧ t.storeReg = true))

/-- With OP_0D_MODE = read_mask no instruction reads P: run with another P, every instruction does the same to
everything but P (60_exceptions.md R201, 10_state.md R37). -/
def Obligations.PendingIsUnreadable : Prop :=
  ∀ (i : Instr) (s : State) (p : Lines), s.params.op0dMode = .readMask →
    ∃ t t', exec i s = .next t ∧ exec i { s with pending := p } = .next t' ∧
      t' = { t with pending := t'.pending }

/-! ### The invariant, reset and load -/

/-- The invariant holds right after reset. -/
def Obligations.InvariantHoldsAtReset : Prop := State.reset.Inv

/-- Every step keeps the invariant: memory stays canonical, a PC that will be advanced is one whose window was
in memory (so the advance never wraps, 44_cycle.md R172), HALTED is entered with F.HALT set, and MEMFAULT only
under OOB_POLICY = stop (20_memory.md R55). -/
def Obligations.StepKeepsTheInvariant : Prop :=
  ∀ s t : State, s.Inv → step s = .next t → t.Inv

/-- In a state with the invariant, the advance does not wrap: it is a sum of integers, and never passes
0x10000 (44_cycle.md R172). -/
def Obligations.AdvanceNeverWraps : Prop :=
  ∀ s : State, s.Inv → s.live → s.pcHalt = false →
    s.advancedPc.toNat = s.pc.toNat + (if s.pcDouble then 4 else 2) ∧ s.advancedPc.toNat ≤ 0x10000

/-- What reset leaves: every byte of memory and R0 to R5 are 0, SP is STACK_BASE, PC is 0 and is fetched
without an advance, F.PC_HALT is set and every other flag, C and P are 0, M is 0x0001, and the run state is
RUNNING (10_state.md R39, 70_reset_and_hazards.md R221). C, P, M[15:1], F.PC_DOUBLE, F.STORE_REG, F.WFI, F.HALT and
the run state are values of the spec's decision D15, and the fetch at 0 is derived from R27 and R172 (log entry
10). It holds for every value of the parameters. -/
def Obligations.ResetState : Prop :=
  ∀ p : Config.Params,
    (∀ a, Memory.readByte (State.resetWith p).mem a = 0) ∧
    (∀ r, r ≠ .sp → (State.resetWith p).readReg r = 0) ∧ (State.resetWith p).sp = p.stackBase ∧
    (State.resetWith p).pcHalt = true ∧ (State.resetWith p).advancedPc = 0 ∧
    (State.resetWith p).pcDouble = false ∧ (State.resetWith p).storeReg = false ∧
    (State.resetWith p).wfi = false ∧ (State.resetWith p).halt = false ∧ (State.resetWith p).carry = false ∧
    (State.resetWith p).mask = 0x0001#16 ∧ (State.resetWith p).pending = 0 ∧
    (State.resetWith p).runState = .running ∧ State.reset = State.resetWith Config.defaults

/-- Load puts byte k of the image at address k and keeps the memory beyond it and everything else; an image
longer than 65536 bytes is refused (70_reset_and_hazards.md R222). -/
def Obligations.LoadPlacesTheImage : Prop :=
  ∀ (image : List Byte) (s : State),
    (image.length ≤ 65536 → ∃ t, hostLoad image s = .next t ∧ t = { s with mem := t.mem } ∧
      (∀ k, (h : k < image.length) → Memory.readByte t.mem k = image[k]) ∧
      (∀ a, image.length ≤ a → Memory.readByte t.mem a = Memory.readByte s.mem a)) ∧
    (65536 < image.length → hostLoad image s = .refused .imageTooLong)
end

