-- ==== Sys2Proof/Laws/Memory.lean ====
section
/-!
SUPPORT. The memory: a byte written is the byte read, every other byte keeps its value, and every operation
keeps the canonical form (20_memory.md R50, R60). None of the reading laws needs the canonical form.
-/

namespace Sys2Proof.Machine

open Sys2Proof

/-! ### One byte -/

theorem Memory.readByte_dropByte (m : Memory) (a c : Nat) :
    Memory.readByte (Memory.dropByte m a) c = if c = a then 0 else Memory.readByte m c := by
  induction m with
  | nil => simp [Memory.dropByte, Memory.readByte]
  | cons e m ih =>
    obtain ⟨k, b⟩ := e
    simp only [Memory.dropByte, List.filter_cons] at ih ⊢
    by_cases hk : k = a
    · subst hk
      by_cases hc : c = k
      · simp_all
      · have : ¬ k = c := fun h => hc h.symm
        simp_all [Memory.readByte]
    · by_cases hkc : k = c
      · subst hkc; simp [Memory.readByte, hk]
      · simpa [Memory.readByte, hk, hkc] using ih

/-- Inserting where the address is not listed. -/
theorem Memory.readByte_insertByte (m : Memory) (a c : Nat) (b : Byte) (h : ∀ e ∈ m, e.1 ≠ a) :
    Memory.readByte (Memory.insertByte m a b) c = if c = a then b else Memory.readByte m c := by
  induction m with
  | nil => simp [Memory.insertByte, Memory.readByte, eq_comm]
  | cons e m ih =>
    obtain ⟨k, d⟩ := e
    have hk : k ≠ a := h (k, d) (by simp)
    have ih := ih fun e he => h e (by simp [he])
    by_cases hlt : a < k
    · simp [Memory.insertByte, hlt, Memory.readByte, eq_comm]
    · by_cases hkc : k = c
      · subst hkc; simp [Memory.insertByte, hlt, Memory.readByte, hk]
      · simp [Memory.insertByte, hlt, Memory.readByte, hkc, ih]

theorem Memory.mem_dropByte (m : Memory) (a : Nat) : ∀ e ∈ Memory.dropByte m a, e.1 ≠ a := by
  intro e he
  simpa using (List.mem_filter.mp he).2

/-- A byte written is read back, and no other byte changes. -/
theorem Memory.readByte_writeByte (m : Memory) (a c : Nat) (b : Byte) :
    Memory.readByte (Memory.writeByte m a b) c = if c = a then b else Memory.readByte m c := by
  unfold Memory.writeByte
  split
  · next h => rw [Memory.readByte_dropByte, h]
  · rw [Memory.readByte_insertByte _ _ _ _ (Memory.mem_dropByte m a), Memory.readByte_dropByte]
    split <;> rfl

/-! ### The canonical form -/

theorem Memory.wf_nil : Memory.wf [] := by decide

theorem Memory.wf_dropByte (m : Memory) (a : Nat) (h : Memory.wf m) : Memory.wf (Memory.dropByte m a) :=
  ⟨h.1.filter _, fun c hc => h.2 c (List.mem_filter.mp hc).1⟩

theorem Memory.mem_insertByte (m : Memory) (a : Nat) (b : Byte) (e : Host.Cell) :
    e ∈ Memory.insertByte m a b ↔ e = (a, b) ∨ e ∈ m := by
  induction m with
  | nil => simp [Memory.insertByte]
  | cons c m ih =>
    obtain ⟨k, d⟩ := c
    by_cases hlt : a < k
    · simp [Memory.insertByte, hlt]
    · simp only [Memory.insertByte, hlt, if_false, List.mem_cons, ih]
      tauto

theorem Memory.wf_insertByte (m : Memory) (a : Nat) (b : Byte) (h : Memory.wf m)
    (hm : ∀ e ∈ m, e.1 ≠ a) (ha : a < Config.memSize) (hb : b ≠ 0) :
    Memory.wf (Memory.insertByte m a b) := by
  refine ⟨?_, fun c hc => ?_⟩
  · replace h := h.1
    induction m with
    | nil => simp [Memory.insertByte]
    | cons c m ih =>
      obtain ⟨k, d⟩ := c
      have hk : k ≠ a := hm (k, d) (by simp)
      obtain ⟨h1, h2⟩ := List.pairwise_cons.mp h
      by_cases hlt : a < k
      · simp only [Memory.insertByte, hlt, if_true]
        refine List.pairwise_cons.mpr ⟨fun e he => ?_, h⟩
        rcases List.mem_cons.mp he with rfl | he
        · exact hlt
        · exact hlt.trans (h1 e he)
      · simp only [Memory.insertByte, hlt, if_false]
        refine List.pairwise_cons.mpr ⟨fun e he => ?_, ih (fun e he => hm e (by simp [he])) h2⟩
        rcases (Memory.mem_insertByte m a b e).mp he with rfl | he
        · show k < a
          omega
        · exact h1 e he
  · rcases (Memory.mem_insertByte m a b c).mp hc with rfl | hc
    · exact ⟨ha, hb⟩
    · exact h.2 c hc

/-- Writing a byte of the address space keeps the canonical form. -/
theorem Memory.wf_writeByte (m : Memory) (a : Nat) (b : Byte) (h : Memory.wf m) (ha : a < Config.memSize) :
    Memory.wf (Memory.writeByte m a b) := by
  unfold Memory.writeByte
  split
  · exact Memory.wf_dropByte m a h
  · next hb =>
    exact Memory.wf_insertByte _ a b (Memory.wf_dropByte m a h) (Memory.mem_dropByte m a) ha hb

/-! ### Several bytes -/

theorem byteAddr_lt (a k : Nat) : byteAddr a k < Config.memSize :=
  Nat.mod_lt _ (by decide)

/-- In range an access uses the bytes a, a + 1, ... (R55). -/
theorem byteAddr_of_lt (a k : Nat) (h : a + k < Config.memSize) : byteAddr a k = a + k :=
  Nat.mod_eq_of_lt h

/-- The bytes of one access are distinct. -/
theorem byteAddr_inj {a j k : Nat} (hj : j < Config.memSize) (hk : k < Config.memSize)
    (h : byteAddr a j = byteAddr a k) : j = k := by
  unfold byteAddr Config.memSize at *
  omega

/-- Every memory operation keeps the canonical form. -/
theorem Memory.wf_writeFrom (m : Memory) (a k : Nat) (bs : List Byte) (h : Memory.wf m) :
    Memory.wf (Memory.writeFrom m a k bs) := by
  induction bs generalizing m k with
  | nil => exact h
  | cons b bs ih => exact ih _ _ (Memory.wf_writeByte m _ b h (byteAddr_lt a k))

/-- A byte outside the written ones keeps its value. -/
theorem Memory.readByte_writeFrom_outside (m : Memory) (a k : Nat) (bs : List Byte) (c : Nat)
    (h : ∀ j < bs.length, c ≠ byteAddr a (k + j)) :
    Memory.readByte (Memory.writeFrom m a k bs) c = Memory.readByte m c := by
  induction bs generalizing m k with
  | nil => rfl
  | cons b bs ih =>
    have h0 : c ≠ byteAddr a k := h 0 (by simp)
    rw [Memory.writeFrom, ih _ _ fun j hj => ?_, Memory.readByte_writeByte, if_neg h0]
    have := h (j + 1) (by simpa using hj)
    rwa [show k + 1 + j = k + (j + 1) by omega]

/-- The written bytes read back, up to the size of the memory. -/
theorem Memory.readByte_writeFrom_inside (m : Memory) (a k : Nat) (bs : List Byte) (j : Nat)
    (hj : j < bs.length) (hlen : k + bs.length ≤ Config.memSize) :
    Memory.readByte (Memory.writeFrom m a k bs) (byteAddr a (k + j)) = bs[j] := by
  induction bs generalizing m k j with
  | nil => simp at hj
  | cons b bs ih =>
    simp only [List.length_cons] at hlen hj
    cases j with
    | zero =>
      rw [Memory.writeFrom, Memory.readByte_writeFrom_outside, Nat.add_zero, Memory.readByte_writeByte,
        if_pos rfl]
      · rfl
      · intro i hi he
        have := byteAddr_inj (by omega) (by omega) he
        omega
    | succ j =>
      have := ih (Memory.writeByte m (byteAddr a k) b) (k + 1) j (by omega) (by omega)
      rw [show k + 1 + j = k + (j + 1) by omega] at this
      simpa [Memory.writeFrom] using this

@[simp] theorem Memory.length_readFrom (m : Memory) (a k n : Nat) :
    (Memory.readFrom m a k n).length = n := by
  induction n generalizing k with
  | zero => rfl
  | succ n ih => simp [Memory.readFrom, ih]

/-- Reading what was written, at the same place and of the same length. -/
theorem Memory.readFrom_writeFrom (m : Memory) (a k : Nat) (bs : List Byte)
    (hlen : k + bs.length ≤ Config.memSize) :
    Memory.readFrom (Memory.writeFrom m a k bs) a k bs.length = bs := by
  induction bs generalizing m k with
  | nil => rfl
  | cons b bs ih =>
    have h0 := Memory.readByte_writeFrom_inside m a k (b :: bs) 0 (by simp) hlen
    simp only [List.length_cons] at hlen ⊢
    have h1 := ih (Memory.writeByte m (byteAddr a k) b) (k + 1) (by omega)
    simp only [Nat.add_zero, List.getElem_cons_zero] at h0
    rw [Memory.readFrom, h0]
    simpa [Memory.writeFrom] using h1

/-! ### Byte order (R58) -/

@[simp] theorem length_splitBytes (n v : Nat) : (splitBytes n v).length = n := by
  induction n generalizing v with
  | zero => rfl
  | succ n ih => simp [splitBytes, ih]

@[simp] theorem length_bytesOfValue (o : Config.ByteOrder) (n v : Nat) : (bytesOfValue o n v).length = n := by
  cases o <;> simp [bytesOfValue, orderBytes]

/-- Assembling the bytes a value was split into gives its low bytes. -/
theorem assemble_splitBytes (n v : Nat) : assemble (splitBytes n v) = v % 256 ^ n := by
  induction n generalizing v with
  | zero => simp [splitBytes, assemble, Nat.mod_one]
  | succ n ih =>
    simp only [splitBytes, assemble, ih, BitVec.toNat_ofNat]
    rw [show v % 256 ^ (n + 1) = v % 256 + 256 * (v / 256 % 256 ^ n) by rw [Nat.pow_succ', Nat.mod_mul]]

/-- The byte order is used the same way in both directions. -/
theorem valueOfBytes_bytesOfValue (o : Config.ByteOrder) (n v : Nat) :
    valueOfBytes o (bytesOfValue o n v) = v % 256 ^ n := by
  cases o <;> simp [valueOfBytes, bytesOfValue, orderBytes, assemble_splitBytes]

/-- The least significant byte first: byte k of the split is bits 8k+7 : 8k. -/
theorem getElem_splitBytes (n v k : Nat) (h : k < (splitBytes n v).length) :
    (splitBytes n v)[k] = BitVec.ofNat 8 (v / 256 ^ k) := by
  induction n generalizing v k with
  | zero => simp at h
  | succ n ih =>
    cases k with
    | zero => simp [splitBytes]
    | succ k =>
      simp only [splitBytes, List.getElem_cons_succ, ih]
      rw [Nat.div_div_eq_div_mul, ← Nat.pow_succ']

/-! ### Values as sums and as bit fields (20_memory.md R58) -/

/-- Assembling bytes is the weighted sum of them. -/
theorem assemble_eq_sum (bs : List Byte) :
    assemble bs = ∑ k ∈ Finset.range bs.length, (bs.getD k 0).toNat * 2 ^ (8 * k) := by
  induction bs with
  | nil => simp [assemble]
  | cons b bs ih =>
    rw [assemble, ih, List.length_cons, Finset.sum_range_succ', Finset.mul_sum, Nat.add_comm]
    congr 1
    · apply Finset.sum_congr rfl
      intro k _
      simp
      ring
    · simp

/-- Byte j of the bytes read is the byte at that address. -/
theorem Memory.getD_readFrom (m : Memory) (a k n j : Nat) (h : j < n) :
    (Memory.readFrom m a k n).getD j 0 = Memory.readByte m (byteAddr a (k + j)) := by
  induction n generalizing k j with
  | zero => omega
  | succ n ih =>
    cases j with
    | zero => simp [Memory.readFrom]
    | succ j =>
      simp only [Memory.readFrom, List.getD_cons_succ, ih (k + 1) j (by omega)]
      congr 2
      omega

/-- Byte k of a word by division is bits 8k+7 to 8k. -/
theorem ofNat_div_eq_extractLsb' (v : Word) (k : Nat) :
    BitVec.ofNat 8 (v.toNat / 256 ^ k) = v.extractLsb' (8 * k) 8 := by
  apply BitVec.eq_of_toNat_eq
  simp [BitVec.extractLsb', Nat.shiftRight_eq_div_pow, Nat.pow_mul]

/-! ### The operations on State -/

/-- A store keeps the canonical form. -/
theorem State.memStore_wf (s : State) (a : Word) (n : Nat) (v : Word) (h : Memory.wf s.mem) :
    Memory.wf (s.memStore a n v).mem :=
  Memory.wf_writeFrom _ _ _ _ h

end Sys2Proof.Machine
end

