-- ==== Sys2Proof/Laws/Decode.lean ====
section
/-!
SUPPORT. The encoding's small lemmas: packing and extracting fields are inverse, register names and their
bits are inverse, and a halfword survives its bytes in either order.
-/

namespace Sys2Proof

open Config

@[simp] theorem regOfBits_bitsOfReg (r : Reg) : regOfBits (bitsOfReg r) = r := by
  cases r <;> rfl

@[simp] theorem bitsOfReg_regOfBits (b : BitVec 3) : bitsOfReg (regOfBits b) = b := by
  revert b; decide

/-! ### Fields (30_encoding.md R72) -/

@[simp] theorem opField_packFields (op : BitVec 5) (rd ra rb : BitVec 3) (mode : BitVec 2) :
    opField (packFields op rd ra rb mode) = op := by
  apply BitVec.eq_of_getLsbD_eq; intro i hi
  simp only [opField, packFields, BitVec.getLsbD_extractLsb', BitVec.getLsbD_append]
  interval_cases i <;> simp

@[simp] theorem rdField_packFields (op : BitVec 5) (rd ra rb : BitVec 3) (mode : BitVec 2) :
    rdField (packFields op rd ra rb mode) = rd := by
  apply BitVec.eq_of_getLsbD_eq; intro i hi
  simp only [rdField, packFields, BitVec.getLsbD_extractLsb', BitVec.getLsbD_append]
  interval_cases i <;> simp

@[simp] theorem raField_packFields (op : BitVec 5) (rd ra rb : BitVec 3) (mode : BitVec 2) :
    raField (packFields op rd ra rb mode) = ra := by
  apply BitVec.eq_of_getLsbD_eq; intro i hi
  simp only [raField, packFields, BitVec.getLsbD_extractLsb', BitVec.getLsbD_append]
  interval_cases i <;> simp

@[simp] theorem rbField_packFields (op : BitVec 5) (rd ra rb : BitVec 3) (mode : BitVec 2) :
    rbField (packFields op rd ra rb mode) = rb := by
  apply BitVec.eq_of_getLsbD_eq; intro i hi
  simp only [rbField, packFields, BitVec.getLsbD_extractLsb', BitVec.getLsbD_append]
  interval_cases i <;> simp

@[simp] theorem modeField_packFields (op : BitVec 5) (rd ra rb : BitVec 3) (mode : BitVec 2) :
    modeField (packFields op rd ra rb mode) = mode := by
  apply BitVec.eq_of_getLsbD_eq; intro i hi
  simp only [modeField, packFields, BitVec.getLsbD_extractLsb', BitVec.getLsbD_append]
  interval_cases i <;> simp

/-- A halfword is packed from its own fields. -/
theorem packFields_fields (hi : Halfword) :
    packFields (opField hi) (rdField hi) (raField hi) (rbField hi) (modeField hi) = hi := by
  apply BitVec.eq_of_getLsbD_eq; intro i hi
  simp only [opField, rdField, raField, rbField, modeField, packFields, BitVec.getLsbD_extractLsb',
    BitVec.getLsbD_append]
  interval_cases i <;> simp

/-! ### Opcode map (30_encoding.md R84) -/

/-- The fields of the instruction that given fields select are those fields. -/
@[simp] theorem instrFields_instrOfFields (op : BitVec 5) (rd ra : Reg) (o : Operand2) :
    instrFields (instrOfFields op rd ra o) = ⟨op, rd, ra, o⟩ := by
  obtain ⟨⟨n, hn⟩⟩ := op
  interval_cases n <;> rfl

/-- An instruction is selected by its own fields. -/
@[simp] theorem instrOfFields_instrFields (i : Instr) :
    instrOfFields (instrFields i).op (instrFields i).rd (instrFields i).ra (instrFields i).o = i := by
  cases i <;> rfl

/-- Whether an instruction is well-formed depends on its operand 2 alone. -/
theorem wellFormed_iff_operand2 (i : Instr) : i.wellFormed = (instrFields i).o.wellFormed := by
  cases i <;> rfl

/-! ### Halfwords and bytes (20_memory.md R58, 30_encoding.md R71) -/

/-- The bytes of a halfword in either order give the halfword back. -/
theorem bytesOfValue_halfword (o : ByteOrder) (h : Halfword) :
    ∃ b0 b1, bytesOfValue o 2 h.toNat = [b0, b1] ∧ halfword o b0 b1 = h := by
  have hlen := Machine.length_bytesOfValue o 2 h.toNat
  have hval := Machine.valueOfBytes_bytesOfValue o 2 h.toNat
  match hb : bytesOfValue o 2 h.toNat with
  | [b0, b1] =>
    refine ⟨b0, b1, rfl, ?_⟩
    rw [hb] at hval
    unfold halfword
    rw [hval]
    apply BitVec.eq_of_toNat_eq
    have := h.isLt
    simp only [BitVec.toNat_ofNat]
    omega
  | [] => simp [hb] at hlen
  | [_] => simp [hb] at hlen
  | _ :: _ :: _ :: _ => simp [hb] at hlen

end Sys2Proof
end

