-- ==== Sys2Proof/Laws/State.lean ====
section
/-!
SUPPORT. One lemma per field of State and straight-line update, each true by rfl, so that no later proof
unfolds a record update.
-/

namespace Sys2Proof.Machine

open Sys2Proof

section
variable (s : State)

/-! `stopMemFault`: `stop MEMFAULT` (R55): only the run state. -/

@[simp] theorem State.stopMemFault_r1 : (s.stopMemFault).r1 = s.r1 := rfl
@[simp] theorem State.stopMemFault_r2 : (s.stopMemFault).r2 = s.r2 := rfl
@[simp] theorem State.stopMemFault_r3 : (s.stopMemFault).r3 = s.r3 := rfl
@[simp] theorem State.stopMemFault_r4 : (s.stopMemFault).r4 = s.r4 := rfl
@[simp] theorem State.stopMemFault_r5 : (s.stopMemFault).r5 = s.r5 := rfl
@[simp] theorem State.stopMemFault_sp : (s.stopMemFault).sp = s.sp := rfl
@[simp] theorem State.stopMemFault_pc : (s.stopMemFault).pc = s.pc := rfl
@[simp] theorem State.stopMemFault_pcHalt : (s.stopMemFault).pcHalt = s.pcHalt := rfl
@[simp] theorem State.stopMemFault_pcDouble : (s.stopMemFault).pcDouble = s.pcDouble := rfl
@[simp] theorem State.stopMemFault_storeReg : (s.stopMemFault).storeReg = s.storeReg := rfl
@[simp] theorem State.stopMemFault_wfi : (s.stopMemFault).wfi = s.wfi := rfl
@[simp] theorem State.stopMemFault_halt : (s.stopMemFault).halt = s.halt := rfl
@[simp] theorem State.stopMemFault_carry : (s.stopMemFault).carry = s.carry := rfl
@[simp] theorem State.stopMemFault_mask : (s.stopMemFault).mask = s.mask := rfl
@[simp] theorem State.stopMemFault_pending : (s.stopMemFault).pending = s.pending := rfl
@[simp] theorem State.stopMemFault_mem : (s.stopMemFault).mem = s.mem := rfl
@[simp] theorem State.stopMemFault_runState : (s.stopMemFault).runState = .memFault := rfl
@[simp] theorem State.stopMemFault_lastDecoded : (s.stopMemFault).lastDecoded = s.lastDecoded := rfl
@[simp] theorem State.stopMemFault_params : (s.stopMemFault).params = s.params := rfl
@[simp] theorem State.stopMemFault_draws : (s.stopMemFault).draws = s.draws := rfl
@[simp] theorem State.stopMemFault_requests : (s.stopMemFault).requests = s.requests := rfl

/-! `withSp`: an internal SP update (R23): only SP. -/

@[simp] theorem State.withSp_r1 (v : Word) : (s.withSp v).r1 = s.r1 := rfl
@[simp] theorem State.withSp_r2 (v : Word) : (s.withSp v).r2 = s.r2 := rfl
@[simp] theorem State.withSp_r3 (v : Word) : (s.withSp v).r3 = s.r3 := rfl
@[simp] theorem State.withSp_r4 (v : Word) : (s.withSp v).r4 = s.r4 := rfl
@[simp] theorem State.withSp_r5 (v : Word) : (s.withSp v).r5 = s.r5 := rfl
@[simp] theorem State.withSp_sp (v : Word) : (s.withSp v).sp = v := rfl
@[simp] theorem State.withSp_pc (v : Word) : (s.withSp v).pc = s.pc := rfl
@[simp] theorem State.withSp_pcHalt (v : Word) : (s.withSp v).pcHalt = s.pcHalt := rfl
@[simp] theorem State.withSp_pcDouble (v : Word) : (s.withSp v).pcDouble = s.pcDouble := rfl
@[simp] theorem State.withSp_storeReg (v : Word) : (s.withSp v).storeReg = s.storeReg := rfl
@[simp] theorem State.withSp_wfi (v : Word) : (s.withSp v).wfi = s.wfi := rfl
@[simp] theorem State.withSp_halt (v : Word) : (s.withSp v).halt = s.halt := rfl
@[simp] theorem State.withSp_carry (v : Word) : (s.withSp v).carry = s.carry := rfl
@[simp] theorem State.withSp_mask (v : Word) : (s.withSp v).mask = s.mask := rfl
@[simp] theorem State.withSp_pending (v : Word) : (s.withSp v).pending = s.pending := rfl
@[simp] theorem State.withSp_mem (v : Word) : (s.withSp v).mem = s.mem := rfl
@[simp] theorem State.withSp_runState (v : Word) : (s.withSp v).runState = s.runState := rfl
@[simp] theorem State.withSp_lastDecoded (v : Word) : (s.withSp v).lastDecoded = s.lastDecoded := rfl
@[simp] theorem State.withSp_params (v : Word) : (s.withSp v).params = s.params := rfl
@[simp] theorem State.withSp_draws (v : Word) : (s.withSp v).draws = s.draws := rfl
@[simp] theorem State.withSp_requests (v : Word) : (s.withSp v).requests = s.requests := rfl

/-! `jumpTo`: a jump (R120, R196): PC and F.PC_HALT. -/

@[simp] theorem State.jumpTo_r1 (v : Word) : (s.jumpTo v).r1 = s.r1 := rfl
@[simp] theorem State.jumpTo_r2 (v : Word) : (s.jumpTo v).r2 = s.r2 := rfl
@[simp] theorem State.jumpTo_r3 (v : Word) : (s.jumpTo v).r3 = s.r3 := rfl
@[simp] theorem State.jumpTo_r4 (v : Word) : (s.jumpTo v).r4 = s.r4 := rfl
@[simp] theorem State.jumpTo_r5 (v : Word) : (s.jumpTo v).r5 = s.r5 := rfl
@[simp] theorem State.jumpTo_sp (v : Word) : (s.jumpTo v).sp = s.sp := rfl
@[simp] theorem State.jumpTo_pc (v : Word) : (s.jumpTo v).pc = v := rfl
@[simp] theorem State.jumpTo_pcHalt (v : Word) : (s.jumpTo v).pcHalt = true := rfl
@[simp] theorem State.jumpTo_pcDouble (v : Word) : (s.jumpTo v).pcDouble = s.pcDouble := rfl
@[simp] theorem State.jumpTo_storeReg (v : Word) : (s.jumpTo v).storeReg = s.storeReg := rfl
@[simp] theorem State.jumpTo_wfi (v : Word) : (s.jumpTo v).wfi = s.wfi := rfl
@[simp] theorem State.jumpTo_halt (v : Word) : (s.jumpTo v).halt = s.halt := rfl
@[simp] theorem State.jumpTo_carry (v : Word) : (s.jumpTo v).carry = s.carry := rfl
@[simp] theorem State.jumpTo_mask (v : Word) : (s.jumpTo v).mask = s.mask := rfl
@[simp] theorem State.jumpTo_pending (v : Word) : (s.jumpTo v).pending = s.pending := rfl
@[simp] theorem State.jumpTo_mem (v : Word) : (s.jumpTo v).mem = s.mem := rfl
@[simp] theorem State.jumpTo_runState (v : Word) : (s.jumpTo v).runState = s.runState := rfl
@[simp] theorem State.jumpTo_lastDecoded (v : Word) : (s.jumpTo v).lastDecoded = s.lastDecoded := rfl
@[simp] theorem State.jumpTo_params (v : Word) : (s.jumpTo v).params = s.params := rfl
@[simp] theorem State.jumpTo_draws (v : Word) : (s.jumpTo v).draws = s.draws := rfl
@[simp] theorem State.jumpTo_requests (v : Word) : (s.jumpTo v).requests = s.requests := rfl

/-! `markResult`: F.STORE_REG <- 1 (R29): only that flag. -/

@[simp] theorem State.markResult_r1 : (s.markResult).r1 = s.r1 := rfl
@[simp] theorem State.markResult_r2 : (s.markResult).r2 = s.r2 := rfl
@[simp] theorem State.markResult_r3 : (s.markResult).r3 = s.r3 := rfl
@[simp] theorem State.markResult_r4 : (s.markResult).r4 = s.r4 := rfl
@[simp] theorem State.markResult_r5 : (s.markResult).r5 = s.r5 := rfl
@[simp] theorem State.markResult_sp : (s.markResult).sp = s.sp := rfl
@[simp] theorem State.markResult_pc : (s.markResult).pc = s.pc := rfl
@[simp] theorem State.markResult_pcHalt : (s.markResult).pcHalt = s.pcHalt := rfl
@[simp] theorem State.markResult_pcDouble : (s.markResult).pcDouble = s.pcDouble := rfl
@[simp] theorem State.markResult_storeReg : (s.markResult).storeReg = true := rfl
@[simp] theorem State.markResult_wfi : (s.markResult).wfi = s.wfi := rfl
@[simp] theorem State.markResult_halt : (s.markResult).halt = s.halt := rfl
@[simp] theorem State.markResult_carry : (s.markResult).carry = s.carry := rfl
@[simp] theorem State.markResult_mask : (s.markResult).mask = s.mask := rfl
@[simp] theorem State.markResult_pending : (s.markResult).pending = s.pending := rfl
@[simp] theorem State.markResult_mem : (s.markResult).mem = s.mem := rfl
@[simp] theorem State.markResult_runState : (s.markResult).runState = s.runState := rfl
@[simp] theorem State.markResult_lastDecoded : (s.markResult).lastDecoded = s.lastDecoded := rfl
@[simp] theorem State.markResult_params : (s.markResult).params = s.params := rfl
@[simp] theorem State.markResult_draws : (s.markResult).draws = s.draws := rfl
@[simp] theorem State.markResult_requests : (s.markResult).requests = s.requests := rfl

/-! `withWfi`: F.WFI (R30): only that flag. -/

@[simp] theorem State.withWfi_r1 (b : Bool) : (s.withWfi b).r1 = s.r1 := rfl
@[simp] theorem State.withWfi_r2 (b : Bool) : (s.withWfi b).r2 = s.r2 := rfl
@[simp] theorem State.withWfi_r3 (b : Bool) : (s.withWfi b).r3 = s.r3 := rfl
@[simp] theorem State.withWfi_r4 (b : Bool) : (s.withWfi b).r4 = s.r4 := rfl
@[simp] theorem State.withWfi_r5 (b : Bool) : (s.withWfi b).r5 = s.r5 := rfl
@[simp] theorem State.withWfi_sp (b : Bool) : (s.withWfi b).sp = s.sp := rfl
@[simp] theorem State.withWfi_pc (b : Bool) : (s.withWfi b).pc = s.pc := rfl
@[simp] theorem State.withWfi_pcHalt (b : Bool) : (s.withWfi b).pcHalt = s.pcHalt := rfl
@[simp] theorem State.withWfi_pcDouble (b : Bool) : (s.withWfi b).pcDouble = s.pcDouble := rfl
@[simp] theorem State.withWfi_storeReg (b : Bool) : (s.withWfi b).storeReg = s.storeReg := rfl
@[simp] theorem State.withWfi_wfi (b : Bool) : (s.withWfi b).wfi = b := rfl
@[simp] theorem State.withWfi_halt (b : Bool) : (s.withWfi b).halt = s.halt := rfl
@[simp] theorem State.withWfi_carry (b : Bool) : (s.withWfi b).carry = s.carry := rfl
@[simp] theorem State.withWfi_mask (b : Bool) : (s.withWfi b).mask = s.mask := rfl
@[simp] theorem State.withWfi_pending (b : Bool) : (s.withWfi b).pending = s.pending := rfl
@[simp] theorem State.withWfi_mem (b : Bool) : (s.withWfi b).mem = s.mem := rfl
@[simp] theorem State.withWfi_runState (b : Bool) : (s.withWfi b).runState = s.runState := rfl
@[simp] theorem State.withWfi_lastDecoded (b : Bool) : (s.withWfi b).lastDecoded = s.lastDecoded := rfl
@[simp] theorem State.withWfi_params (b : Bool) : (s.withWfi b).params = s.params := rfl
@[simp] theorem State.withWfi_draws (b : Bool) : (s.withWfi b).draws = s.draws := rfl
@[simp] theorem State.withWfi_requests (b : Bool) : (s.withWfi b).requests = s.requests := rfl

/-! `markHalt`: F.HALT <- 1 (R31): only that flag. -/

@[simp] theorem State.markHalt_r1 : (s.markHalt).r1 = s.r1 := rfl
@[simp] theorem State.markHalt_r2 : (s.markHalt).r2 = s.r2 := rfl
@[simp] theorem State.markHalt_r3 : (s.markHalt).r3 = s.r3 := rfl
@[simp] theorem State.markHalt_r4 : (s.markHalt).r4 = s.r4 := rfl
@[simp] theorem State.markHalt_r5 : (s.markHalt).r5 = s.r5 := rfl
@[simp] theorem State.markHalt_sp : (s.markHalt).sp = s.sp := rfl
@[simp] theorem State.markHalt_pc : (s.markHalt).pc = s.pc := rfl
@[simp] theorem State.markHalt_pcHalt : (s.markHalt).pcHalt = s.pcHalt := rfl
@[simp] theorem State.markHalt_pcDouble : (s.markHalt).pcDouble = s.pcDouble := rfl
@[simp] theorem State.markHalt_storeReg : (s.markHalt).storeReg = s.storeReg := rfl
@[simp] theorem State.markHalt_wfi : (s.markHalt).wfi = s.wfi := rfl
@[simp] theorem State.markHalt_halt : (s.markHalt).halt = true := rfl
@[simp] theorem State.markHalt_carry : (s.markHalt).carry = s.carry := rfl
@[simp] theorem State.markHalt_mask : (s.markHalt).mask = s.mask := rfl
@[simp] theorem State.markHalt_pending : (s.markHalt).pending = s.pending := rfl
@[simp] theorem State.markHalt_mem : (s.markHalt).mem = s.mem := rfl
@[simp] theorem State.markHalt_runState : (s.markHalt).runState = s.runState := rfl
@[simp] theorem State.markHalt_lastDecoded : (s.markHalt).lastDecoded = s.lastDecoded := rfl
@[simp] theorem State.markHalt_params : (s.markHalt).params = s.params := rfl
@[simp] theorem State.markHalt_draws : (s.markHalt).draws = s.draws := rfl
@[simp] theorem State.markHalt_requests : (s.markHalt).requests = s.requests := rfl

/-! `withMask`: M (R33): only M. -/

@[simp] theorem State.withMask_r1 (m : Lines) : (s.withMask m).r1 = s.r1 := rfl
@[simp] theorem State.withMask_r2 (m : Lines) : (s.withMask m).r2 = s.r2 := rfl
@[simp] theorem State.withMask_r3 (m : Lines) : (s.withMask m).r3 = s.r3 := rfl
@[simp] theorem State.withMask_r4 (m : Lines) : (s.withMask m).r4 = s.r4 := rfl
@[simp] theorem State.withMask_r5 (m : Lines) : (s.withMask m).r5 = s.r5 := rfl
@[simp] theorem State.withMask_sp (m : Lines) : (s.withMask m).sp = s.sp := rfl
@[simp] theorem State.withMask_pc (m : Lines) : (s.withMask m).pc = s.pc := rfl
@[simp] theorem State.withMask_pcHalt (m : Lines) : (s.withMask m).pcHalt = s.pcHalt := rfl
@[simp] theorem State.withMask_pcDouble (m : Lines) : (s.withMask m).pcDouble = s.pcDouble := rfl
@[simp] theorem State.withMask_storeReg (m : Lines) : (s.withMask m).storeReg = s.storeReg := rfl
@[simp] theorem State.withMask_wfi (m : Lines) : (s.withMask m).wfi = s.wfi := rfl
@[simp] theorem State.withMask_halt (m : Lines) : (s.withMask m).halt = s.halt := rfl
@[simp] theorem State.withMask_carry (m : Lines) : (s.withMask m).carry = s.carry := rfl
@[simp] theorem State.withMask_mask (m : Lines) : (s.withMask m).mask = m := rfl
@[simp] theorem State.withMask_pending (m : Lines) : (s.withMask m).pending = s.pending := rfl
@[simp] theorem State.withMask_mem (m : Lines) : (s.withMask m).mem = s.mem := rfl
@[simp] theorem State.withMask_runState (m : Lines) : (s.withMask m).runState = s.runState := rfl
@[simp] theorem State.withMask_lastDecoded (m : Lines) : (s.withMask m).lastDecoded = s.lastDecoded := rfl
@[simp] theorem State.withMask_params (m : Lines) : (s.withMask m).params = s.params := rfl
@[simp] theorem State.withMask_draws (m : Lines) : (s.withMask m).draws = s.draws := rfl
@[simp] theorem State.withMask_requests (m : Lines) : (s.withMask m).requests = s.requests := rfl

/-! `withPending`: P (R34): only P. -/

@[simp] theorem State.withPending_r1 (p : Lines) : (s.withPending p).r1 = s.r1 := rfl
@[simp] theorem State.withPending_r2 (p : Lines) : (s.withPending p).r2 = s.r2 := rfl
@[simp] theorem State.withPending_r3 (p : Lines) : (s.withPending p).r3 = s.r3 := rfl
@[simp] theorem State.withPending_r4 (p : Lines) : (s.withPending p).r4 = s.r4 := rfl
@[simp] theorem State.withPending_r5 (p : Lines) : (s.withPending p).r5 = s.r5 := rfl
@[simp] theorem State.withPending_sp (p : Lines) : (s.withPending p).sp = s.sp := rfl
@[simp] theorem State.withPending_pc (p : Lines) : (s.withPending p).pc = s.pc := rfl
@[simp] theorem State.withPending_pcHalt (p : Lines) : (s.withPending p).pcHalt = s.pcHalt := rfl
@[simp] theorem State.withPending_pcDouble (p : Lines) : (s.withPending p).pcDouble = s.pcDouble := rfl
@[simp] theorem State.withPending_storeReg (p : Lines) : (s.withPending p).storeReg = s.storeReg := rfl
@[simp] theorem State.withPending_wfi (p : Lines) : (s.withPending p).wfi = s.wfi := rfl
@[simp] theorem State.withPending_halt (p : Lines) : (s.withPending p).halt = s.halt := rfl
@[simp] theorem State.withPending_carry (p : Lines) : (s.withPending p).carry = s.carry := rfl
@[simp] theorem State.withPending_mask (p : Lines) : (s.withPending p).mask = s.mask := rfl
@[simp] theorem State.withPending_pending (p : Lines) : (s.withPending p).pending = p := rfl
@[simp] theorem State.withPending_mem (p : Lines) : (s.withPending p).mem = s.mem := rfl
@[simp] theorem State.withPending_runState (p : Lines) : (s.withPending p).runState = s.runState := rfl
@[simp] theorem State.withPending_lastDecoded (p : Lines) : (s.withPending p).lastDecoded = s.lastDecoded := rfl
@[simp] theorem State.withPending_params (p : Lines) : (s.withPending p).params = s.params := rfl
@[simp] theorem State.withPending_draws (p : Lines) : (s.withPending p).draws = s.draws := rfl
@[simp] theorem State.withPending_requests (p : Lines) : (s.withPending p).requests = s.requests := rfl

/-! `drawn`: a free value taken (R17): only the model's counter. -/

@[simp] theorem State.drawn_r1 : (s.drawn).r1 = s.r1 := rfl
@[simp] theorem State.drawn_r2 : (s.drawn).r2 = s.r2 := rfl
@[simp] theorem State.drawn_r3 : (s.drawn).r3 = s.r3 := rfl
@[simp] theorem State.drawn_r4 : (s.drawn).r4 = s.r4 := rfl
@[simp] theorem State.drawn_r5 : (s.drawn).r5 = s.r5 := rfl
@[simp] theorem State.drawn_sp : (s.drawn).sp = s.sp := rfl
@[simp] theorem State.drawn_pc : (s.drawn).pc = s.pc := rfl
@[simp] theorem State.drawn_pcHalt : (s.drawn).pcHalt = s.pcHalt := rfl
@[simp] theorem State.drawn_pcDouble : (s.drawn).pcDouble = s.pcDouble := rfl
@[simp] theorem State.drawn_storeReg : (s.drawn).storeReg = s.storeReg := rfl
@[simp] theorem State.drawn_wfi : (s.drawn).wfi = s.wfi := rfl
@[simp] theorem State.drawn_halt : (s.drawn).halt = s.halt := rfl
@[simp] theorem State.drawn_carry : (s.drawn).carry = s.carry := rfl
@[simp] theorem State.drawn_mask : (s.drawn).mask = s.mask := rfl
@[simp] theorem State.drawn_pending : (s.drawn).pending = s.pending := rfl
@[simp] theorem State.drawn_mem : (s.drawn).mem = s.mem := rfl
@[simp] theorem State.drawn_runState : (s.drawn).runState = s.runState := rfl
@[simp] theorem State.drawn_lastDecoded : (s.drawn).lastDecoded = s.lastDecoded := rfl
@[simp] theorem State.drawn_params : (s.drawn).params = s.params := rfl
@[simp] theorem State.drawn_draws : (s.drawn).draws = s.draws + 1 := rfl
@[simp] theorem State.drawn_requests : (s.drawn).requests = s.requests := rfl

/-! `raiseIfault`: `raise IFAULT` (R15): only P. -/

@[simp] theorem State.raiseIfault_r1 : (s.raiseIfault).r1 = s.r1 := rfl
@[simp] theorem State.raiseIfault_r2 : (s.raiseIfault).r2 = s.r2 := rfl
@[simp] theorem State.raiseIfault_r3 : (s.raiseIfault).r3 = s.r3 := rfl
@[simp] theorem State.raiseIfault_r4 : (s.raiseIfault).r4 = s.r4 := rfl
@[simp] theorem State.raiseIfault_r5 : (s.raiseIfault).r5 = s.r5 := rfl
@[simp] theorem State.raiseIfault_sp : (s.raiseIfault).sp = s.sp := rfl
@[simp] theorem State.raiseIfault_pc : (s.raiseIfault).pc = s.pc := rfl
@[simp] theorem State.raiseIfault_pcHalt : (s.raiseIfault).pcHalt = s.pcHalt := rfl
@[simp] theorem State.raiseIfault_pcDouble : (s.raiseIfault).pcDouble = s.pcDouble := rfl
@[simp] theorem State.raiseIfault_storeReg : (s.raiseIfault).storeReg = s.storeReg := rfl
@[simp] theorem State.raiseIfault_wfi : (s.raiseIfault).wfi = s.wfi := rfl
@[simp] theorem State.raiseIfault_halt : (s.raiseIfault).halt = s.halt := rfl
@[simp] theorem State.raiseIfault_carry : (s.raiseIfault).carry = s.carry := rfl
@[simp] theorem State.raiseIfault_mask : (s.raiseIfault).mask = s.mask := rfl
@[simp] theorem State.raiseIfault_pending : (s.raiseIfault).pending = s.pending ||| 0x0001#16 := rfl
@[simp] theorem State.raiseIfault_mem : (s.raiseIfault).mem = s.mem := rfl
@[simp] theorem State.raiseIfault_runState : (s.raiseIfault).runState = s.runState := rfl
@[simp] theorem State.raiseIfault_lastDecoded : (s.raiseIfault).lastDecoded = s.lastDecoded := rfl
@[simp] theorem State.raiseIfault_params : (s.raiseIfault).params = s.params := rfl
@[simp] theorem State.raiseIfault_draws : (s.raiseIfault).draws = s.draws := rfl
@[simp] theorem State.raiseIfault_requests : (s.raiseIfault).requests = s.requests := rfl

/-! `memStore`: MemWrite (R14): only memory. -/

@[simp] theorem State.memStore_r1 (a : Word) (n : Nat) (v : Word) : (s.memStore a n v).r1 = s.r1 := rfl
@[simp] theorem State.memStore_r2 (a : Word) (n : Nat) (v : Word) : (s.memStore a n v).r2 = s.r2 := rfl
@[simp] theorem State.memStore_r3 (a : Word) (n : Nat) (v : Word) : (s.memStore a n v).r3 = s.r3 := rfl
@[simp] theorem State.memStore_r4 (a : Word) (n : Nat) (v : Word) : (s.memStore a n v).r4 = s.r4 := rfl
@[simp] theorem State.memStore_r5 (a : Word) (n : Nat) (v : Word) : (s.memStore a n v).r5 = s.r5 := rfl
@[simp] theorem State.memStore_sp (a : Word) (n : Nat) (v : Word) : (s.memStore a n v).sp = s.sp := rfl
@[simp] theorem State.memStore_pc (a : Word) (n : Nat) (v : Word) : (s.memStore a n v).pc = s.pc := rfl
@[simp] theorem State.memStore_pcHalt (a : Word) (n : Nat) (v : Word) : (s.memStore a n v).pcHalt = s.pcHalt := rfl
@[simp] theorem State.memStore_pcDouble (a : Word) (n : Nat) (v : Word) : (s.memStore a n v).pcDouble = s.pcDouble := rfl
@[simp] theorem State.memStore_storeReg (a : Word) (n : Nat) (v : Word) : (s.memStore a n v).storeReg = s.storeReg := rfl
@[simp] theorem State.memStore_wfi (a : Word) (n : Nat) (v : Word) : (s.memStore a n v).wfi = s.wfi := rfl
@[simp] theorem State.memStore_halt (a : Word) (n : Nat) (v : Word) : (s.memStore a n v).halt = s.halt := rfl
@[simp] theorem State.memStore_carry (a : Word) (n : Nat) (v : Word) : (s.memStore a n v).carry = s.carry := rfl
@[simp] theorem State.memStore_mask (a : Word) (n : Nat) (v : Word) : (s.memStore a n v).mask = s.mask := rfl
@[simp] theorem State.memStore_pending (a : Word) (n : Nat) (v : Word) : (s.memStore a n v).pending = s.pending := rfl
@[simp] theorem State.memStore_mem (a : Word) (n : Nat) (v : Word) : (s.memStore a n v).mem = Memory.writeFrom s.mem a.toNat 0 (bytesOfValue s.params.byteOrder n v.toNat) := rfl
@[simp] theorem State.memStore_runState (a : Word) (n : Nat) (v : Word) : (s.memStore a n v).runState = s.runState := rfl
@[simp] theorem State.memStore_lastDecoded (a : Word) (n : Nat) (v : Word) : (s.memStore a n v).lastDecoded = s.lastDecoded := rfl
@[simp] theorem State.memStore_params (a : Word) (n : Nat) (v : Word) : (s.memStore a n v).params = s.params := rfl
@[simp] theorem State.memStore_draws (a : Word) (n : Nat) (v : Word) : (s.memStore a n v).draws = s.draws := rfl
@[simp] theorem State.memStore_requests (a : Word) (n : Nat) (v : Word) : (s.memStore a n v).requests = s.requests := rfl

/-! `noteDecoded`: the host's view (R226): only `lastDecoded`. -/

@[simp] theorem State.noteDecoded_r1 (i : Instr) : (s.noteDecoded i).r1 = s.r1 := rfl
@[simp] theorem State.noteDecoded_r2 (i : Instr) : (s.noteDecoded i).r2 = s.r2 := rfl
@[simp] theorem State.noteDecoded_r3 (i : Instr) : (s.noteDecoded i).r3 = s.r3 := rfl
@[simp] theorem State.noteDecoded_r4 (i : Instr) : (s.noteDecoded i).r4 = s.r4 := rfl
@[simp] theorem State.noteDecoded_r5 (i : Instr) : (s.noteDecoded i).r5 = s.r5 := rfl
@[simp] theorem State.noteDecoded_sp (i : Instr) : (s.noteDecoded i).sp = s.sp := rfl
@[simp] theorem State.noteDecoded_pc (i : Instr) : (s.noteDecoded i).pc = s.pc := rfl
@[simp] theorem State.noteDecoded_pcHalt (i : Instr) : (s.noteDecoded i).pcHalt = s.pcHalt := rfl
@[simp] theorem State.noteDecoded_pcDouble (i : Instr) : (s.noteDecoded i).pcDouble = s.pcDouble := rfl
@[simp] theorem State.noteDecoded_storeReg (i : Instr) : (s.noteDecoded i).storeReg = s.storeReg := rfl
@[simp] theorem State.noteDecoded_wfi (i : Instr) : (s.noteDecoded i).wfi = s.wfi := rfl
@[simp] theorem State.noteDecoded_halt (i : Instr) : (s.noteDecoded i).halt = s.halt := rfl
@[simp] theorem State.noteDecoded_carry (i : Instr) : (s.noteDecoded i).carry = s.carry := rfl
@[simp] theorem State.noteDecoded_mask (i : Instr) : (s.noteDecoded i).mask = s.mask := rfl
@[simp] theorem State.noteDecoded_pending (i : Instr) : (s.noteDecoded i).pending = s.pending := rfl
@[simp] theorem State.noteDecoded_mem (i : Instr) : (s.noteDecoded i).mem = s.mem := rfl
@[simp] theorem State.noteDecoded_runState (i : Instr) : (s.noteDecoded i).runState = s.runState := rfl
@[simp] theorem State.noteDecoded_lastDecoded (i : Instr) : (s.noteDecoded i).lastDecoded = some ⟨i, s.operand1 (instrFields i).ra, s.operand2 (instrFields i).o⟩ := rfl
@[simp] theorem State.noteDecoded_params (i : Instr) : (s.noteDecoded i).params = s.params := rfl
@[simp] theorem State.noteDecoded_draws (i : Instr) : (s.noteDecoded i).draws = s.draws := rfl
@[simp] theorem State.noteDecoded_requests (i : Instr) : (s.noteDecoded i).requests = s.requests := rfl

/-! `advance`: the PC advance (R172): only PC. -/

@[simp] theorem State.advance_r1 : (s.advance).r1 = s.r1 := rfl
@[simp] theorem State.advance_r2 : (s.advance).r2 = s.r2 := rfl
@[simp] theorem State.advance_r3 : (s.advance).r3 = s.r3 := rfl
@[simp] theorem State.advance_r4 : (s.advance).r4 = s.r4 := rfl
@[simp] theorem State.advance_r5 : (s.advance).r5 = s.r5 := rfl
@[simp] theorem State.advance_sp : (s.advance).sp = s.sp := rfl
@[simp] theorem State.advance_pc : (s.advance).pc = s.advancedPc := rfl
@[simp] theorem State.advance_pcHalt : (s.advance).pcHalt = s.pcHalt := rfl
@[simp] theorem State.advance_pcDouble : (s.advance).pcDouble = s.pcDouble := rfl
@[simp] theorem State.advance_storeReg : (s.advance).storeReg = s.storeReg := rfl
@[simp] theorem State.advance_wfi : (s.advance).wfi = s.wfi := rfl
@[simp] theorem State.advance_halt : (s.advance).halt = s.halt := rfl
@[simp] theorem State.advance_carry : (s.advance).carry = s.carry := rfl
@[simp] theorem State.advance_mask : (s.advance).mask = s.mask := rfl
@[simp] theorem State.advance_pending : (s.advance).pending = s.pending := rfl
@[simp] theorem State.advance_mem : (s.advance).mem = s.mem := rfl
@[simp] theorem State.advance_runState : (s.advance).runState = s.runState := rfl
@[simp] theorem State.advance_lastDecoded : (s.advance).lastDecoded = s.lastDecoded := rfl
@[simp] theorem State.advance_params : (s.advance).params = s.params := rfl
@[simp] theorem State.advance_draws : (s.advance).draws = s.draws := rfl
@[simp] theorem State.advance_requests : (s.advance).requests = s.requests := rfl

/-! `clearSingleShot`: the single-shot clear (R174). -/

@[simp] theorem State.clearSingleShot_r1 : (s.clearSingleShot).r1 = s.r1 := rfl
@[simp] theorem State.clearSingleShot_r2 : (s.clearSingleShot).r2 = s.r2 := rfl
@[simp] theorem State.clearSingleShot_r3 : (s.clearSingleShot).r3 = s.r3 := rfl
@[simp] theorem State.clearSingleShot_r4 : (s.clearSingleShot).r4 = s.r4 := rfl
@[simp] theorem State.clearSingleShot_r5 : (s.clearSingleShot).r5 = s.r5 := rfl
@[simp] theorem State.clearSingleShot_sp : (s.clearSingleShot).sp = s.sp := rfl
@[simp] theorem State.clearSingleShot_pc : (s.clearSingleShot).pc = s.pc := rfl
@[simp] theorem State.clearSingleShot_pcHalt : (s.clearSingleShot).pcHalt = false := rfl
@[simp] theorem State.clearSingleShot_pcDouble : (s.clearSingleShot).pcDouble = false := rfl
@[simp] theorem State.clearSingleShot_storeReg : (s.clearSingleShot).storeReg = (match s.params.storeRegMode with | .sticky => s.storeReg | .strict => false) := rfl
@[simp] theorem State.clearSingleShot_wfi : (s.clearSingleShot).wfi = s.wfi := rfl
@[simp] theorem State.clearSingleShot_halt : (s.clearSingleShot).halt = s.halt := rfl
@[simp] theorem State.clearSingleShot_carry : (s.clearSingleShot).carry = s.carry := rfl
@[simp] theorem State.clearSingleShot_mask : (s.clearSingleShot).mask = s.mask := rfl
@[simp] theorem State.clearSingleShot_pending : (s.clearSingleShot).pending = s.pending := rfl
@[simp] theorem State.clearSingleShot_mem : (s.clearSingleShot).mem = s.mem := rfl
@[simp] theorem State.clearSingleShot_runState : (s.clearSingleShot).runState = s.runState := rfl
@[simp] theorem State.clearSingleShot_lastDecoded : (s.clearSingleShot).lastDecoded = s.lastDecoded := rfl
@[simp] theorem State.clearSingleShot_params : (s.clearSingleShot).params = s.params := rfl
@[simp] theorem State.clearSingleShot_draws : (s.clearSingleShot).draws = s.draws := rfl
@[simp] theorem State.clearSingleShot_requests : (s.clearSingleShot).requests = s.requests := rfl

end

/-! Reading a register after a straight-line update. -/

@[simp] theorem State.stopMemFault_readReg (s : State) (r : Reg) : (s.stopMemFault).readReg r = s.readReg r := by
  cases r <;> rfl

@[simp] theorem State.markResult_readReg (s : State) (r : Reg) : (s.markResult).readReg r = s.readReg r := by
  cases r <;> rfl

@[simp] theorem State.withWfi_readReg (s : State) (b : Bool) (r : Reg) : (s.withWfi b).readReg r = s.readReg r := by
  cases r <;> rfl

@[simp] theorem State.markHalt_readReg (s : State) (r : Reg) : (s.markHalt).readReg r = s.readReg r := by
  cases r <;> rfl

@[simp] theorem State.withMask_readReg (s : State) (m : Lines) (r : Reg) : (s.withMask m).readReg r = s.readReg r := by
  cases r <;> rfl

@[simp] theorem State.withPending_readReg (s : State) (p : Lines) (r : Reg) : (s.withPending p).readReg r = s.readReg r := by
  cases r <;> rfl

@[simp] theorem State.drawn_readReg (s : State) (r : Reg) : (s.drawn).readReg r = s.readReg r := by
  cases r <;> rfl

@[simp] theorem State.raiseIfault_readReg (s : State) (r : Reg) : (s.raiseIfault).readReg r = s.readReg r := by
  cases r <;> rfl

@[simp] theorem State.memStore_readReg (s : State) (a : Word) (n : Nat) (v : Word) (r : Reg) : (s.memStore a n v).readReg r = s.readReg r := by
  cases r <;> rfl

@[simp] theorem State.noteDecoded_readReg (s : State) (i : Instr) (r : Reg) : (s.noteDecoded i).readReg r = s.readReg r := by
  cases r <;> rfl

@[simp] theorem State.clearSingleShot_readReg (s : State) (r : Reg) : (s.clearSingleShot).readReg r = s.readReg r := by
  cases r <;> rfl

@[simp] theorem State.withSp_readReg (s : State) (v : Word) (r : Reg) :
    (s.withSp v).readReg r = if r = .sp then v else s.readReg r := by
  cases r <;> rfl

@[simp] theorem State.jumpTo_readReg (s : State) (v : Word) (r : Reg) :
    (s.jumpTo v).readReg r = if r = .pc then v else s.readReg r := by
  cases r <;> rfl

@[simp] theorem State.readReg_r0 (s : State) : s.readReg .r0 = 0 := rfl
@[simp] theorem State.readReg_sp (s : State) : s.readReg .sp = s.sp := rfl
@[simp] theorem State.readReg_pc (s : State) : s.readReg .pc = s.pc := rfl

end Sys2Proof.Machine
end

