-- ==== Sys2Proof/Laws/Ops.lean ====
section
/-!
SUPPORT. What the branching shared operations do, field by field, and what the finishing operations of an
instruction (44_cycle.md R181, R182) do to the registers and to F.PC_HALT.
-/

namespace Sys2Proof.Machine

open Sys2Proof

/-! `writePort` (10_state.md R23): one slot, and F.PC_HALT when the slot is PC. -/

@[simp] theorem State.writePort_pcDouble (s : State) (i : Reg) (v : Word) : (s.writePort i v).pcDouble = s.pcDouble := by
  cases i <;> rfl

@[simp] theorem State.writePort_storeReg (s : State) (i : Reg) (v : Word) : (s.writePort i v).storeReg = s.storeReg := by
  cases i <;> rfl

@[simp] theorem State.writePort_wfi (s : State) (i : Reg) (v : Word) : (s.writePort i v).wfi = s.wfi := by
  cases i <;> rfl

@[simp] theorem State.writePort_halt (s : State) (i : Reg) (v : Word) : (s.writePort i v).halt = s.halt := by
  cases i <;> rfl

@[simp] theorem State.writePort_carry (s : State) (i : Reg) (v : Word) : (s.writePort i v).carry = s.carry := by
  cases i <;> rfl

@[simp] theorem State.writePort_mask (s : State) (i : Reg) (v : Word) : (s.writePort i v).mask = s.mask := by
  cases i <;> rfl

@[simp] theorem State.writePort_pending (s : State) (i : Reg) (v : Word) : (s.writePort i v).pending = s.pending := by
  cases i <;> rfl

@[simp] theorem State.writePort_mem (s : State) (i : Reg) (v : Word) : (s.writePort i v).mem = s.mem := by
  cases i <;> rfl

@[simp] theorem State.writePort_runState (s : State) (i : Reg) (v : Word) : (s.writePort i v).runState = s.runState := by
  cases i <;> rfl

@[simp] theorem State.writePort_lastDecoded (s : State) (i : Reg) (v : Word) : (s.writePort i v).lastDecoded = s.lastDecoded := by
  cases i <;> rfl

@[simp] theorem State.writePort_params (s : State) (i : Reg) (v : Word) : (s.writePort i v).params = s.params := by
  cases i <;> rfl

@[simp] theorem State.writePort_draws (s : State) (i : Reg) (v : Word) : (s.writePort i v).draws = s.draws := by
  cases i <;> rfl

@[simp] theorem State.writePort_requests (s : State) (i : Reg) (v : Word) : (s.writePort i v).requests = s.requests := by
  cases i <;> rfl

@[simp] theorem State.writePort_pcHalt (s : State) (i : Reg) (v : Word) :
    (s.writePort i v).pcHalt = (s.pcHalt || decide (i = .pc)) := by
  cases i <;> simp [State.writePort]

@[simp] theorem State.writePort_readReg (s : State) (i : Reg) (v : Word) (r : Reg) :
    (s.writePort i v).readReg r = if r = i ∧ r ≠ .r0 then v else s.readReg r := by
  cases i <;> cases r <;> rfl

/-! `writeback` (44_cycle.md R182): the write port when F.STORE_REG is set, else nothing. -/

@[simp] theorem State.writeback_pcDouble (s : State) (rd : Reg) (v : Word) : (s.writeback rd v).pcDouble = s.pcDouble := by
  unfold State.writeback; split <;> simp

@[simp] theorem State.writeback_storeReg (s : State) (rd : Reg) (v : Word) : (s.writeback rd v).storeReg = s.storeReg := by
  unfold State.writeback; split <;> simp

@[simp] theorem State.writeback_wfi (s : State) (rd : Reg) (v : Word) : (s.writeback rd v).wfi = s.wfi := by
  unfold State.writeback; split <;> simp

@[simp] theorem State.writeback_halt (s : State) (rd : Reg) (v : Word) : (s.writeback rd v).halt = s.halt := by
  unfold State.writeback; split <;> simp

@[simp] theorem State.writeback_carry (s : State) (rd : Reg) (v : Word) : (s.writeback rd v).carry = s.carry := by
  unfold State.writeback; split <;> simp

@[simp] theorem State.writeback_mask (s : State) (rd : Reg) (v : Word) : (s.writeback rd v).mask = s.mask := by
  unfold State.writeback; split <;> simp

@[simp] theorem State.writeback_pending (s : State) (rd : Reg) (v : Word) : (s.writeback rd v).pending = s.pending := by
  unfold State.writeback; split <;> simp

@[simp] theorem State.writeback_mem (s : State) (rd : Reg) (v : Word) : (s.writeback rd v).mem = s.mem := by
  unfold State.writeback; split <;> simp

@[simp] theorem State.writeback_runState (s : State) (rd : Reg) (v : Word) : (s.writeback rd v).runState = s.runState := by
  unfold State.writeback; split <;> simp

@[simp] theorem State.writeback_lastDecoded (s : State) (rd : Reg) (v : Word) : (s.writeback rd v).lastDecoded = s.lastDecoded := by
  unfold State.writeback; split <;> simp

@[simp] theorem State.writeback_params (s : State) (rd : Reg) (v : Word) : (s.writeback rd v).params = s.params := by
  unfold State.writeback; split <;> simp

@[simp] theorem State.writeback_draws (s : State) (rd : Reg) (v : Word) : (s.writeback rd v).draws = s.draws := by
  unfold State.writeback; split <;> simp

@[simp] theorem State.writeback_requests (s : State) (rd : Reg) (v : Word) : (s.writeback rd v).requests = s.requests := by
  unfold State.writeback; split <;> simp

@[simp] theorem State.writeback_pcHalt (s : State) (rd : Reg) (v : Word) :
    (s.writeback rd v).pcHalt = (s.pcHalt || (s.storeReg && decide (rd = .pc))) := by
  unfold State.writeback; split <;> simp [*]

@[simp] theorem State.writeback_readReg (s : State) (rd : Reg) (v : Word) (r : Reg) :
    (s.writeback rd v).readReg r = if s.storeReg = true ∧ r = rd ∧ r ≠ .r0 then v else s.readReg r := by
  unfold State.writeback; split <;> simp [*]

/-! `finishResult` (R181, R182): F.STORE_REG is set, the result goes to rd. -/

@[simp] theorem State.finishResult_pcDouble (s : State) (rd : Reg) (v : Word) : (s.finishResult rd v).pcDouble = s.pcDouble := by
  simp [State.finishResult]

@[simp] theorem State.finishResult_storeReg (s : State) (rd : Reg) (v : Word) : (s.finishResult rd v).storeReg = true := by
  simp [State.finishResult]

@[simp] theorem State.finishResult_wfi (s : State) (rd : Reg) (v : Word) : (s.finishResult rd v).wfi = s.wfi := by
  simp [State.finishResult]

@[simp] theorem State.finishResult_halt (s : State) (rd : Reg) (v : Word) : (s.finishResult rd v).halt = s.halt := by
  simp [State.finishResult]

@[simp] theorem State.finishResult_carry (s : State) (rd : Reg) (v : Word) : (s.finishResult rd v).carry = s.carry := by
  simp [State.finishResult]

@[simp] theorem State.finishResult_mask (s : State) (rd : Reg) (v : Word) : (s.finishResult rd v).mask = s.mask := by
  simp [State.finishResult]

@[simp] theorem State.finishResult_pending (s : State) (rd : Reg) (v : Word) : (s.finishResult rd v).pending = s.pending := by
  simp [State.finishResult]

@[simp] theorem State.finishResult_mem (s : State) (rd : Reg) (v : Word) : (s.finishResult rd v).mem = s.mem := by
  simp [State.finishResult]

@[simp] theorem State.finishResult_runState (s : State) (rd : Reg) (v : Word) : (s.finishResult rd v).runState = s.runState := by
  simp [State.finishResult]

@[simp] theorem State.finishResult_lastDecoded (s : State) (rd : Reg) (v : Word) : (s.finishResult rd v).lastDecoded = s.lastDecoded := by
  simp [State.finishResult]

@[simp] theorem State.finishResult_params (s : State) (rd : Reg) (v : Word) : (s.finishResult rd v).params = s.params := by
  simp [State.finishResult]

@[simp] theorem State.finishResult_draws (s : State) (rd : Reg) (v : Word) : (s.finishResult rd v).draws = s.draws := by
  simp [State.finishResult]

@[simp] theorem State.finishResult_requests (s : State) (rd : Reg) (v : Word) : (s.finishResult rd v).requests = s.requests := by
  simp [State.finishResult]

@[simp] theorem State.finishResult_pcHalt (s : State) (rd : Reg) (v : Word) :
    (s.finishResult rd v).pcHalt = (s.pcHalt || decide (rd = .pc)) := by
  simp [State.finishResult]

@[simp] theorem State.finishResult_readReg (s : State) (rd : Reg) (v : Word) (r : Reg) :
    (s.finishResult rd v).readReg r = if r = rd ∧ r ≠ .r0 then v else s.readReg r := by
  simp [State.finishResult]

/-! `finishNoResult` (R181, R182): if F.STORE_REG is set, rd receives a free value. -/

@[simp] theorem State.finishNoResult_pcDouble (s : State) (rd : Reg) : (s.finishNoResult rd).pcDouble = s.pcDouble := by
  simp [State.finishNoResult]

@[simp] theorem State.finishNoResult_storeReg (s : State) (rd : Reg) : (s.finishNoResult rd).storeReg = s.storeReg := by
  simp [State.finishNoResult]

@[simp] theorem State.finishNoResult_wfi (s : State) (rd : Reg) : (s.finishNoResult rd).wfi = s.wfi := by
  simp [State.finishNoResult]

@[simp] theorem State.finishNoResult_halt (s : State) (rd : Reg) : (s.finishNoResult rd).halt = s.halt := by
  simp [State.finishNoResult]

@[simp] theorem State.finishNoResult_carry (s : State) (rd : Reg) : (s.finishNoResult rd).carry = s.carry := by
  simp [State.finishNoResult]

@[simp] theorem State.finishNoResult_mask (s : State) (rd : Reg) : (s.finishNoResult rd).mask = s.mask := by
  simp [State.finishNoResult]

@[simp] theorem State.finishNoResult_pending (s : State) (rd : Reg) : (s.finishNoResult rd).pending = s.pending := by
  simp [State.finishNoResult]

@[simp] theorem State.finishNoResult_mem (s : State) (rd : Reg) : (s.finishNoResult rd).mem = s.mem := by
  simp [State.finishNoResult]

@[simp] theorem State.finishNoResult_runState (s : State) (rd : Reg) : (s.finishNoResult rd).runState = s.runState := by
  simp [State.finishNoResult]

@[simp] theorem State.finishNoResult_lastDecoded (s : State) (rd : Reg) : (s.finishNoResult rd).lastDecoded = s.lastDecoded := by
  simp [State.finishNoResult]

@[simp] theorem State.finishNoResult_params (s : State) (rd : Reg) : (s.finishNoResult rd).params = s.params := by
  simp [State.finishNoResult]

@[simp] theorem State.finishNoResult_draws (s : State) (rd : Reg) : (s.finishNoResult rd).draws = s.draws + 1 := by
  simp [State.finishNoResult]

@[simp] theorem State.finishNoResult_requests (s : State) (rd : Reg) : (s.finishNoResult rd).requests = s.requests := by
  simp [State.finishNoResult]

@[simp] theorem State.finishNoResult_pcHalt (s : State) (rd : Reg) :
    (s.finishNoResult rd).pcHalt = (s.pcHalt || (s.storeReg && decide (rd = .pc))) := by
  simp [State.finishNoResult]

@[simp] theorem State.finishNoResult_readReg (s : State) (rd : Reg) (r : Reg) :
    (s.finishNoResult rd).readReg r =
      if s.storeReg = true ∧ r = rd ∧ r ≠ .r0 then s.freeValue else s.readReg r := by
  simp [State.finishNoResult]

/-! `afterDecode` (30_encoding.md R77 to R80): F.PC_DOUBLE in mode 10; P[0] and a draw in mode 11. -/

@[simp] theorem State.afterDecode_r1 (s : State) (o : Operand2) : (s.afterDecode o).r1 = s.r1 := by
  cases o <;> rfl

@[simp] theorem State.afterDecode_r2 (s : State) (o : Operand2) : (s.afterDecode o).r2 = s.r2 := by
  cases o <;> rfl

@[simp] theorem State.afterDecode_r3 (s : State) (o : Operand2) : (s.afterDecode o).r3 = s.r3 := by
  cases o <;> rfl

@[simp] theorem State.afterDecode_r4 (s : State) (o : Operand2) : (s.afterDecode o).r4 = s.r4 := by
  cases o <;> rfl

@[simp] theorem State.afterDecode_r5 (s : State) (o : Operand2) : (s.afterDecode o).r5 = s.r5 := by
  cases o <;> rfl

@[simp] theorem State.afterDecode_sp (s : State) (o : Operand2) : (s.afterDecode o).sp = s.sp := by
  cases o <;> rfl

@[simp] theorem State.afterDecode_pc (s : State) (o : Operand2) : (s.afterDecode o).pc = s.pc := by
  cases o <;> rfl

@[simp] theorem State.afterDecode_pcHalt (s : State) (o : Operand2) : (s.afterDecode o).pcHalt = s.pcHalt := by
  cases o <;> rfl

@[simp] theorem State.afterDecode_storeReg (s : State) (o : Operand2) : (s.afterDecode o).storeReg = s.storeReg := by
  cases o <;> rfl

@[simp] theorem State.afterDecode_wfi (s : State) (o : Operand2) : (s.afterDecode o).wfi = s.wfi := by
  cases o <;> rfl

@[simp] theorem State.afterDecode_halt (s : State) (o : Operand2) : (s.afterDecode o).halt = s.halt := by
  cases o <;> rfl

@[simp] theorem State.afterDecode_carry (s : State) (o : Operand2) : (s.afterDecode o).carry = s.carry := by
  cases o <;> rfl

@[simp] theorem State.afterDecode_mask (s : State) (o : Operand2) : (s.afterDecode o).mask = s.mask := by
  cases o <;> rfl

@[simp] theorem State.afterDecode_mem (s : State) (o : Operand2) : (s.afterDecode o).mem = s.mem := by
  cases o <;> rfl

@[simp] theorem State.afterDecode_runState (s : State) (o : Operand2) : (s.afterDecode o).runState = s.runState := by
  cases o <;> rfl

@[simp] theorem State.afterDecode_lastDecoded (s : State) (o : Operand2) : (s.afterDecode o).lastDecoded = s.lastDecoded := by
  cases o <;> rfl

@[simp] theorem State.afterDecode_params (s : State) (o : Operand2) : (s.afterDecode o).params = s.params := by
  cases o <;> rfl

@[simp] theorem State.afterDecode_requests (s : State) (o : Operand2) : (s.afterDecode o).requests = s.requests := by
  cases o <;> rfl

@[simp] theorem State.afterDecode_pcDouble (s : State) (o : Operand2) :
    (s.afterDecode o).pcDouble = (s.pcDouble || o.isLong) := by
  cases o <;> simp [State.afterDecode, Operand2.isLong]

@[simp] theorem State.afterDecode_pending (s : State) (o : Operand2) :
    (s.afterDecode o).pending = if o.isInvalid then s.pending ||| 0x0001#16 else s.pending := by
  cases o <;> simp [State.afterDecode, Operand2.isInvalid]

@[simp] theorem State.afterDecode_draws (s : State) (o : Operand2) :
    (s.afterDecode o).draws = if o.isInvalid then s.draws + 1 else s.draws := by
  cases o <;> simp [State.afterDecode, Operand2.isInvalid]

@[simp] theorem State.afterDecode_readReg (s : State) (o : Operand2) (r : Reg) :
    (s.afterDecode o).readReg r = s.readReg r := by
  cases o <;> cases r <;> rfl

/-! `writeCarry` (43_alu.md R140, R141): C, which is a free value in mode 11. -/

@[simp] theorem State.writeCarry_r1 (s : State) (o : Operand2) (c : Bool) : (s.writeCarry o c).r1 = s.r1 := by
  cases o <;> rfl

@[simp] theorem State.writeCarry_r2 (s : State) (o : Operand2) (c : Bool) : (s.writeCarry o c).r2 = s.r2 := by
  cases o <;> rfl

@[simp] theorem State.writeCarry_r3 (s : State) (o : Operand2) (c : Bool) : (s.writeCarry o c).r3 = s.r3 := by
  cases o <;> rfl

@[simp] theorem State.writeCarry_r4 (s : State) (o : Operand2) (c : Bool) : (s.writeCarry o c).r4 = s.r4 := by
  cases o <;> rfl

@[simp] theorem State.writeCarry_r5 (s : State) (o : Operand2) (c : Bool) : (s.writeCarry o c).r5 = s.r5 := by
  cases o <;> rfl

@[simp] theorem State.writeCarry_sp (s : State) (o : Operand2) (c : Bool) : (s.writeCarry o c).sp = s.sp := by
  cases o <;> rfl

@[simp] theorem State.writeCarry_pc (s : State) (o : Operand2) (c : Bool) : (s.writeCarry o c).pc = s.pc := by
  cases o <;> rfl

@[simp] theorem State.writeCarry_pcHalt (s : State) (o : Operand2) (c : Bool) : (s.writeCarry o c).pcHalt = s.pcHalt := by
  cases o <;> rfl

@[simp] theorem State.writeCarry_pcDouble (s : State) (o : Operand2) (c : Bool) : (s.writeCarry o c).pcDouble = s.pcDouble := by
  cases o <;> rfl

@[simp] theorem State.writeCarry_storeReg (s : State) (o : Operand2) (c : Bool) : (s.writeCarry o c).storeReg = s.storeReg := by
  cases o <;> rfl

@[simp] theorem State.writeCarry_wfi (s : State) (o : Operand2) (c : Bool) : (s.writeCarry o c).wfi = s.wfi := by
  cases o <;> rfl

@[simp] theorem State.writeCarry_halt (s : State) (o : Operand2) (c : Bool) : (s.writeCarry o c).halt = s.halt := by
  cases o <;> rfl

@[simp] theorem State.writeCarry_mask (s : State) (o : Operand2) (c : Bool) : (s.writeCarry o c).mask = s.mask := by
  cases o <;> rfl

@[simp] theorem State.writeCarry_pending (s : State) (o : Operand2) (c : Bool) : (s.writeCarry o c).pending = s.pending := by
  cases o <;> rfl

@[simp] theorem State.writeCarry_mem (s : State) (o : Operand2) (c : Bool) : (s.writeCarry o c).mem = s.mem := by
  cases o <;> rfl

@[simp] theorem State.writeCarry_runState (s : State) (o : Operand2) (c : Bool) : (s.writeCarry o c).runState = s.runState := by
  cases o <;> rfl

@[simp] theorem State.writeCarry_lastDecoded (s : State) (o : Operand2) (c : Bool) : (s.writeCarry o c).lastDecoded = s.lastDecoded := by
  cases o <;> rfl

@[simp] theorem State.writeCarry_params (s : State) (o : Operand2) (c : Bool) : (s.writeCarry o c).params = s.params := by
  cases o <;> rfl

@[simp] theorem State.writeCarry_requests (s : State) (o : Operand2) (c : Bool) : (s.writeCarry o c).requests = s.requests := by
  cases o <;> rfl

theorem State.writeCarry_carry (s : State) (o : Operand2) (c : Bool) (h : o.isInvalid = false) :
    (s.writeCarry o c).carry = c := by
  cases o <;> simp_all [State.writeCarry, Operand2.isInvalid]

@[simp] theorem State.writeCarry_readReg (s : State) (o : Operand2) (c : Bool) (r : Reg) :
    (s.writeCarry o c).readReg r = s.readReg r := by
  cases o <;> cases r <;> rfl

/-! The cycle's small steps (44_cycle.md R173, R178; 60_exceptions.md R198). -/

@[simp] theorem State.guardEnd_r1 (s : State) : s.guardEnd.r1 = s.r1 := by
  unfold State.guardEnd; split <;> rfl

@[simp] theorem State.guardEnd_r2 (s : State) : s.guardEnd.r2 = s.r2 := by
  unfold State.guardEnd; split <;> rfl

@[simp] theorem State.guardEnd_r3 (s : State) : s.guardEnd.r3 = s.r3 := by
  unfold State.guardEnd; split <;> rfl

@[simp] theorem State.guardEnd_r4 (s : State) : s.guardEnd.r4 = s.r4 := by
  unfold State.guardEnd; split <;> rfl

@[simp] theorem State.guardEnd_r5 (s : State) : s.guardEnd.r5 = s.r5 := by
  unfold State.guardEnd; split <;> rfl

@[simp] theorem State.guardEnd_sp (s : State) : s.guardEnd.sp = s.sp := by
  unfold State.guardEnd; split <;> rfl

@[simp] theorem State.guardEnd_pc (s : State) : s.guardEnd.pc = s.pc := by
  unfold State.guardEnd; split <;> rfl

@[simp] theorem State.guardEnd_pcHalt (s : State) : s.guardEnd.pcHalt = s.pcHalt := by
  unfold State.guardEnd; split <;> rfl

@[simp] theorem State.guardEnd_pcDouble (s : State) : s.guardEnd.pcDouble = s.pcDouble := by
  unfold State.guardEnd; split <;> rfl

@[simp] theorem State.guardEnd_storeReg (s : State) : s.guardEnd.storeReg = s.storeReg := by
  unfold State.guardEnd; split <;> rfl

@[simp] theorem State.guardEnd_wfi (s : State) : s.guardEnd.wfi = s.wfi := by
  unfold State.guardEnd; split <;> rfl

@[simp] theorem State.guardEnd_carry (s : State) : s.guardEnd.carry = s.carry := by
  unfold State.guardEnd; split <;> rfl

@[simp] theorem State.guardEnd_mask (s : State) : s.guardEnd.mask = s.mask := by
  unfold State.guardEnd; split <;> rfl

@[simp] theorem State.guardEnd_pending (s : State) : s.guardEnd.pending = s.pending := by
  unfold State.guardEnd; split <;> rfl

@[simp] theorem State.guardEnd_mem (s : State) : s.guardEnd.mem = s.mem := by
  unfold State.guardEnd; split <;> rfl

@[simp] theorem State.guardEnd_runState (s : State) : s.guardEnd.runState = s.runState := by
  unfold State.guardEnd; split <;> rfl

@[simp] theorem State.guardEnd_lastDecoded (s : State) : s.guardEnd.lastDecoded = s.lastDecoded := by
  unfold State.guardEnd; split <;> rfl

@[simp] theorem State.guardEnd_params (s : State) : s.guardEnd.params = s.params := by
  unfold State.guardEnd; split <;> rfl

@[simp] theorem State.guardEnd_draws (s : State) : s.guardEnd.draws = s.draws := by
  unfold State.guardEnd; split <;> rfl

@[simp] theorem State.guardEnd_requests (s : State) : s.guardEnd.requests = s.requests := by
  unfold State.guardEnd; split <;> rfl

@[simp] theorem State.guardEnd_halt (s : State) : s.guardEnd.halt = (s.halt || s.pastEnd) := by
  unfold State.guardEnd; split <;> simp [*]

@[simp] theorem State.park_r1 (s : State) : s.park.r1 = s.r1 := by
  unfold State.park; split <;> rfl

@[simp] theorem State.park_r2 (s : State) : s.park.r2 = s.r2 := by
  unfold State.park; split <;> rfl

@[simp] theorem State.park_r3 (s : State) : s.park.r3 = s.r3 := by
  unfold State.park; split <;> rfl

@[simp] theorem State.park_r4 (s : State) : s.park.r4 = s.r4 := by
  unfold State.park; split <;> rfl

@[simp] theorem State.park_r5 (s : State) : s.park.r5 = s.r5 := by
  unfold State.park; split <;> rfl

@[simp] theorem State.park_sp (s : State) : s.park.sp = s.sp := by
  unfold State.park; split <;> rfl

@[simp] theorem State.park_pc (s : State) : s.park.pc = s.pc := by
  unfold State.park; split <;> rfl

@[simp] theorem State.park_pcDouble (s : State) : s.park.pcDouble = s.pcDouble := by
  unfold State.park; split <;> rfl

@[simp] theorem State.park_storeReg (s : State) : s.park.storeReg = s.storeReg := by
  unfold State.park; split <;> rfl

@[simp] theorem State.park_wfi (s : State) : s.park.wfi = s.wfi := by
  unfold State.park; split <;> rfl

@[simp] theorem State.park_halt (s : State) : s.park.halt = s.halt := by
  unfold State.park; split <;> rfl

@[simp] theorem State.park_carry (s : State) : s.park.carry = s.carry := by
  unfold State.park; split <;> rfl

@[simp] theorem State.park_mask (s : State) : s.park.mask = s.mask := by
  unfold State.park; split <;> rfl

@[simp] theorem State.park_pending (s : State) : s.park.pending = s.pending := by
  unfold State.park; split <;> rfl

@[simp] theorem State.park_mem (s : State) : s.park.mem = s.mem := by
  unfold State.park; split <;> rfl

@[simp] theorem State.park_runState (s : State) : s.park.runState = s.runState := by
  unfold State.park; split <;> rfl

@[simp] theorem State.park_lastDecoded (s : State) : s.park.lastDecoded = s.lastDecoded := by
  unfold State.park; split <;> rfl

@[simp] theorem State.park_params (s : State) : s.park.params = s.params := by
  unfold State.park; split <;> rfl

@[simp] theorem State.park_draws (s : State) : s.park.draws = s.draws := by
  unfold State.park; split <;> rfl

@[simp] theorem State.park_requests (s : State) : s.park.requests = s.requests := by
  unfold State.park; split <;> rfl

@[simp] theorem State.acceptRequests_r1 (s : State) : s.acceptRequests.r1 = s.r1 := by
  unfold State.acceptRequests; split
  · rfl
  · split <;> rfl

@[simp] theorem State.acceptRequests_r2 (s : State) : s.acceptRequests.r2 = s.r2 := by
  unfold State.acceptRequests; split
  · rfl
  · split <;> rfl

@[simp] theorem State.acceptRequests_r3 (s : State) : s.acceptRequests.r3 = s.r3 := by
  unfold State.acceptRequests; split
  · rfl
  · split <;> rfl

@[simp] theorem State.acceptRequests_r4 (s : State) : s.acceptRequests.r4 = s.r4 := by
  unfold State.acceptRequests; split
  · rfl
  · split <;> rfl

@[simp] theorem State.acceptRequests_r5 (s : State) : s.acceptRequests.r5 = s.r5 := by
  unfold State.acceptRequests; split
  · rfl
  · split <;> rfl

@[simp] theorem State.acceptRequests_sp (s : State) : s.acceptRequests.sp = s.sp := by
  unfold State.acceptRequests; split
  · rfl
  · split <;> rfl

@[simp] theorem State.acceptRequests_pc (s : State) : s.acceptRequests.pc = s.pc := by
  unfold State.acceptRequests; split
  · rfl
  · split <;> rfl

@[simp] theorem State.acceptRequests_pcHalt (s : State) : s.acceptRequests.pcHalt = s.pcHalt := by
  unfold State.acceptRequests; split
  · rfl
  · split <;> rfl

@[simp] theorem State.acceptRequests_pcDouble (s : State) : s.acceptRequests.pcDouble = s.pcDouble := by
  unfold State.acceptRequests; split
  · rfl
  · split <;> rfl

@[simp] theorem State.acceptRequests_storeReg (s : State) : s.acceptRequests.storeReg = s.storeReg := by
  unfold State.acceptRequests; split
  · rfl
  · split <;> rfl

@[simp] theorem State.acceptRequests_wfi (s : State) : s.acceptRequests.wfi = s.wfi := by
  unfold State.acceptRequests; split
  · rfl
  · split <;> rfl

@[simp] theorem State.acceptRequests_halt (s : State) : s.acceptRequests.halt = s.halt := by
  unfold State.acceptRequests; split
  · rfl
  · split <;> rfl

@[simp] theorem State.acceptRequests_carry (s : State) : s.acceptRequests.carry = s.carry := by
  unfold State.acceptRequests; split
  · rfl
  · split <;> rfl

@[simp] theorem State.acceptRequests_mask (s : State) : s.acceptRequests.mask = s.mask := by
  unfold State.acceptRequests; split
  · rfl
  · split <;> rfl

@[simp] theorem State.acceptRequests_mem (s : State) : s.acceptRequests.mem = s.mem := by
  unfold State.acceptRequests; split
  · rfl
  · split <;> rfl

@[simp] theorem State.acceptRequests_runState (s : State) : s.acceptRequests.runState = s.runState := by
  unfold State.acceptRequests; split
  · rfl
  · split <;> rfl

@[simp] theorem State.acceptRequests_lastDecoded (s : State) : s.acceptRequests.lastDecoded = s.lastDecoded := by
  unfold State.acceptRequests; split
  · rfl
  · split <;> rfl

@[simp] theorem State.acceptRequests_params (s : State) : s.acceptRequests.params = s.params := by
  unfold State.acceptRequests; split
  · rfl
  · split <;> rfl

@[simp] theorem State.acceptRequests_draws (s : State) : s.acceptRequests.draws = s.draws := by
  unfold State.acceptRequests; split
  · rfl
  · split <;> rfl

/-- With no external requester the requests are not read (R198). -/
theorem State.acceptRequests_absent (s : State) (h : s.params.extIrq = .absent) : s.acceptRequests = s := by
  simp [State.acceptRequests, h]

/-- What the beginning of a cycle leaves (R172 to R174), field by field. -/
theorem State.beginCycle_fields (s : State) :
    s.beginCycle.pc = s.advancedPc ∧ s.beginCycle.pcHalt = false ∧ s.beginCycle.pcDouble = false ∧
    s.beginCycle.halt = (s.halt || decide (Config.memSize < s.advancedPc.toNat + 4)) ∧
    s.beginCycle.mem = s.mem ∧ s.beginCycle.params = s.params ∧ s.beginCycle.wfi = s.wfi ∧
    s.beginCycle.mask = s.mask ∧ s.beginCycle.pending = s.pending ∧ s.beginCycle.sp = s.sp ∧
    s.beginCycle.runState = s.runState := by
  refine ⟨?_, ?_, ?_, ?_, ?_, ?_, ?_, ?_, ?_, ?_, ?_⟩ <;> simp [State.beginCycle]
  rfl

/-- One bit of M or P after a write of one bit (R128). -/
theorem getLsbD_writeLine (m : Lines) (index : Word) (b : Bool) (k : Nat) (hk : k < 16) :
    (writeLine m index b).getLsbD k = if index.toNat = k then b else m.getLsbD k := by
  have one : ∀ j, ((1#16 <<< j) : BitVec 16).getLsbD k = decide (j = k) := by
    intro j
    simp [hk]
    by_cases h : k < j <;> simp [h] <;> omega
  unfold writeLine
  split
  · split
    · rw [BitVec.getLsbD_or, one]
      by_cases h : index.toNat = k <;> simp [*]
    · rw [BitVec.getLsbD_and, BitVec.getLsbD_not, one]
      by_cases h : index.toNat = k <;> simp_all
  · next h =>
    rw [Nat.not_lt, Config.irqLines] at h
    rw [if_neg (by omega)]

/-- Everything the shared operation of ADC and SBC does outside mode 11 (43_alu.md R140, R141). -/
theorem State.aluSum_effect (s : State) (sum : Nat) (rd : Reg) (o : Operand2) (h : o.isInvalid = false) :
    (∀ r, (s.aluSum sum rd o).readReg r = if r = rd ∧ r ≠ .r0 then sumResult sum else s.readReg r) ∧
    (s.aluSum sum rd o).carry = sumCarry sum ∧ (s.aluSum sum rd o).mem = s.mem ∧
    (s.aluSum sum rd o).params = s.params ∧ (s.aluSum sum rd o).mask = s.mask ∧
    (s.aluSum sum rd o).pending = s.pending ∧ (s.aluSum sum rd o).runState = s.runState := by
  refine ⟨fun r => by simp [State.aluSum], ?_, ?_, ?_, ?_, ?_, ?_⟩ <;>
    simp [State.aluSum, h, State.writeCarry_carry _ _ _ h]

/-- The first halfword a cycle fetches is the one at the advanced PC (44_cycle.md R172, R175). -/
theorem State.beginCycle_fetchHi (s : State) :
    s.acceptRequests.beginCycle.fetchHi = BitVec.ofNat 16 (s.memValue s.acceptRequests.advancedPc 2) := by
  have h := s.acceptRequests.beginCycle_fields
  simp [State.fetchHi, State.memValue, h]

/-- The second halfword a cycle fetches is the one 2 bytes further. -/
theorem State.beginCycle_fetchLo (s : State) :
    s.acceptRequests.beginCycle.fetchLo = BitVec.ofNat 16 (s.memValue (s.acceptRequests.advancedPc + 2) 2) := by
  have h := s.acceptRequests.beginCycle_fields
  simp [State.fetchLo, State.memValue, h]

end Sys2Proof.Machine
end

