-- ==== Sys2Proof/Laws/Exec.lean ====
section
/-!
SUPPORT. What an instruction can do, said once: every next state of `exec` has one of the shapes of
`ExecShape`. What a step can do, said once: `step_cases`. Invariants are derived from these two.
-/

namespace Sys2Proof.Machine

open Sys2Proof

/-- The state an instruction starts its unit in: the decoder's effects are done (44_cycle.md R183). -/
def decoded (i : Instr) (s : State) : State := s.afterDecode (instrFields i).o

/-- The shapes of an instruction's next state. -/
inductive ExecShape (i : Instr) (s : State) : State → Prop
  /-- an access the bounds rule does not allow (20_memory.md R55) -/
  | stop (a : Word) (n : Nat) (ha : dataAccess s i = some (a, n)) (hn : s.accessAllowed a n = false) :
      ExecShape i s (decoded i s).stopMemFault
  /-- a load, MSKR, PNDR, or an ALU operation other than ADC and SBC -/
  | result (v : Word) : ExecShape i s ((decoded i s).finishResult (instrFields i).rd v)
  /-- POP -/
  | pop (v : Word) : ExecShape i s (((decoded i s).withSp (s.sp - 4)).finishResult (instrFields i).rd v)
  /-- ADC and SBC -/
  | sum (c : Bool) (v : Word) (h : ∃ rd ra o, i = .adc rd ra o ∨ i = .sbc rd ra o) :
      ExecShape i s (((decoded i s).writeCarry (instrFields i).o c).finishResult (instrFields i).rd v)
  /-- a store -/
  | store (a : Word) (n : Nat) (v : Word) :
      ExecShape i s (((decoded i s).memStore a n v).finishNoResult (instrFields i).rd)
  /-- PUSH -/
  | push (v : Word) :
      ExecShape i s ((((decoded i s).memStore s.sp 4 v).withSp (s.sp + 4)).finishNoResult (instrFields i).rd)
  /-- a taken BNZ -/
  | jump (v : Word) (h : (instrFields i).op = 8#5) (hc : s.readReg (instrFields i).ra ≠ 0) :
      ExecShape i s (((decoded i s).jumpTo v).finishNoResult (instrFields i).rd)
  /-- a BNZ that is not taken, and 0x0F as no operation -/
  | nothing : ExecShape i s ((decoded i s).finishNoResult (instrFields i).rd)
  /-- WFI -/
  | wfi (h : ∃ rd ra o, i = .wfi rd ra o) :
      ExecShape i s (((decoded i s).withWfi true).finishNoResult (instrFields i).rd)
  /-- HALT -/
  | halt (h : ∃ rd ra o, i = .halt rd ra o) :
      ExecShape i s ((decoded i s).markHalt.finishNoResult (instrFields i).rd)
  /-- MSKW -/
  | mask (m : Lines) (h : ∃ rd ra o, i = .mskw rd ra o) :
      ExecShape i s (((decoded i s).withMask m).finishNoResult (instrFields i).rd)
  /-- PNDW -/
  | pending (b : Bool) (h : ∃ rd ra o, i = .pndw rd ra o) :
      ExecShape i s
        (((decoded i s).withPending
            (writeLine (decoded i s).pending (s.readReg (instrFields i).ra) b)).finishNoResult
          (instrFields i).rd)
  /-- an invalid opcode -/
  | invalid : ExecShape i s ((decoded i s).raiseIfault.writeback (instrFields i).rd 0)

@[simp] theorem State.afterDecode_accessAllowed (s : State) (o : Operand2) (a : Word) (n : Nat) :
    (s.afterDecode o).accessAllowed a n = s.accessAllowed a n := by
  simp [State.accessAllowed]

@[simp] theorem State.afterDecode_memValue (s : State) (o : Operand2) (a : Word) (n : Nat) :
    (s.afterDecode o).memValue a n = s.memValue a n := by
  simp [State.memValue]

theorem loadResult_shape (i : Instr) (s : State) (n : Nat) (ra : Reg)
    (ha : dataAccess s i = some (s.operand1 ra, n)) :
    ExecShape i s (s.loadResult n (instrFields i).rd ra (instrFields i).o) := by
  unfold State.loadResult
  dsimp only
  split
  · exact .result _
  · next h => exact .stop _ n ha (by simpa using h)

theorem storeValue_shape (i : Instr) (s : State) (n : Nat) (ra : Reg)
    (ha : dataAccess s i = some (s.operand1 ra, n)) :
    ExecShape i s (s.storeValue n (instrFields i).rd ra (instrFields i).o) := by
  unfold State.storeValue
  dsimp only
  split
  · exact .store _ n _
  · next h => exact .stop _ n ha (by simpa using h)

/-- Every instruction completes, with a next state of one of the shapes. -/
theorem exec_shape (i : Instr) (s : State) : ∃ t, exec i s = .next t ∧ ExecShape i s t := by
  cases i with
  | ldb rd ra o => exact ⟨_, rfl, loadResult_shape (.ldb rd ra o) s 1 ra rfl⟩
  | ldh rd ra o => exact ⟨_, rfl, loadResult_shape (.ldh rd ra o) s 2 ra rfl⟩
  | ldw rd ra o => exact ⟨_, rfl, loadResult_shape (.ldw rd ra o) s 4 ra rfl⟩
  | stb rd ra o => exact ⟨_, rfl, storeValue_shape (.stb rd ra o) s 1 ra rfl⟩
  | sth rd ra o => exact ⟨_, rfl, storeValue_shape (.sth rd ra o) s 2 ra rfl⟩
  | stw rd ra o => exact ⟨_, rfl, storeValue_shape (.stw rd ra o) s 4 ra rfl⟩
  | push rd ra o =>
    refine ⟨_, rfl, ?_⟩
    rw [State.afterDecode_sp]
    split
    · exact .push _
    · next h => exact .stop s.sp 4 rfl (by simpa using h)
  | pop rd ra o =>
    refine ⟨_, rfl, ?_⟩
    rw [State.afterDecode_sp]
    split
    · exact .pop _
    · next h => exact .stop s.sp 4 rfl (by simpa using h)
  | bnz rd ra o =>
    refine ⟨_, rfl, ?_⟩
    split
    · next h => exact .jump _ rfl (of_decide_eq_true h)
    · exact .nothing
  | wfi rd ra o => exact ⟨_, rfl, .wfi ⟨rd, ra, o, rfl⟩⟩
  | mskw rd ra o => exact ⟨_, rfl, .mask _ ⟨rd, ra, o, rfl⟩⟩
  | mskr rd ra o => exact ⟨_, rfl, .result _⟩
  | pndw rd ra o => exact ⟨_, rfl, .pending _ ⟨rd, ra, o, rfl⟩⟩
  | pndr rd ra o => exact ⟨_, rfl, .result _⟩
  | halt rd ra o => exact ⟨_, rfl, .halt ⟨rd, ra, o, rfl⟩⟩
  | invalid0f rd ra o =>
    refine ⟨_, rfl, ?_⟩
    split
    · exact .invalid
    · exact .nothing
  | adc rd ra o => exact ⟨_, rfl, .sum _ _ ⟨rd, ra, o, .inl rfl⟩⟩
  | sbc rd ra o => exact ⟨_, rfl, .sum _ _ ⟨rd, ra, o, .inr rfl⟩⟩
  | cmp rd ra o => exact ⟨_, rfl, .result _⟩
  | land rd ra o => exact ⟨_, rfl, .result _⟩
  | lor rd ra o => exact ⟨_, rfl, .result _⟩
  | lnot rd ra o => exact ⟨_, rfl, .result _⟩
  | lsr rd ra o => exact ⟨_, rfl, .result _⟩
  | lsl rd ra o => exact ⟨_, rfl, .result _⟩
  | asr rd ra o => exact ⟨_, rfl, .result _⟩
  | ror rd ra o => exact ⟨_, rfl, .result _⟩
  | invalid1a rd ra o => exact ⟨_, rfl, .invalid⟩
  | invalid1b rd ra o => exact ⟨_, rfl, .invalid⟩
  | invalid1c rd ra o => exact ⟨_, rfl, .invalid⟩
  | invalid1d rd ra o => exact ⟨_, rfl, .invalid⟩
  | invalid1e rd ra o => exact ⟨_, rfl, .invalid⟩
  | invalid1f rd ra o => exact ⟨_, rfl, .invalid⟩

/-- The shape of a given next state. -/
theorem shape_of_exec {i : Instr} {s t : State} (h : exec i s = .next t) : ExecShape i s t := by
  obtain ⟨u, hu, hs⟩ := exec_shape i s
  rw [hu] at h
  cases h
  exact hs

/-! ### Dispatch (60_exceptions.md R196) -/

/-- A dispatch whose push is allowed. -/
theorem State.dispatch_allowed (s : State) (h : s.accessAllowed s.sp 4 = true) :
    s.dispatch =
      (((s.memStore s.sp 4 s.pc).withSp s.dispatchSp).jumpTo s.handlerEntry).withWfi false := by
  simp [State.dispatch, h]

/-- A dispatch whose push is not allowed. -/
theorem State.dispatch_stops (s : State) (h : s.accessAllowed s.sp 4 = false) :
    s.dispatch = s.stopMemFault := by
  simp [State.dispatch, h]

/-! ### A step (44_cycle.md R176) -/

/-- Everything a step can do when it gives a next state. -/
theorem step_cases {s t : State} (h : step s = .next t) :
    s.runState = .running ∧
    ((s.halt = true ∧ t = { s.acceptRequests with runState := .halted }) ∨
     (s.halt = false ∧ s.acceptRequests.beginCycle.halt = true ∧ t = s.acceptRequests.beginCycle) ∨
     (s.halt = false ∧ s.acceptRequests.beginCycle.halt = false ∧
      ((s.acceptRequests.beginCycle.interrupted = true ∧ t = s.acceptRequests.beginCycle.dispatch) ∨
       (s.acceptRequests.beginCycle.interrupted = false ∧ s.wfi = true ∧
          t = s.acceptRequests.beginCycle.park) ∨
       (s.acceptRequests.beginCycle.interrupted = false ∧ s.wfi = false ∧
          exec s.acceptRequests.beginCycle.fetched
            (s.acceptRequests.beginCycle.noteDecoded s.acceptRequests.beginCycle.fetched) = .next t)))) := by
  unfold step runLoop at h
  split at h
  · next hr =>
    refine ⟨hr, ?_⟩
    unfold cycle at h
    split at h
    · next hh => cases h; exact .inl ⟨by simpa using hh, rfl⟩
    · next hh =>
      have hh : s.halt = false := by simpa using hh
      split at h
      · next hb => cases h; exact .inr (.inl ⟨hh, hb, rfl⟩)
      · next hb =>
        refine .inr (.inr ⟨hh, by simpa using hb, ?_⟩)
        unfold evaluate at h
        split at h
        · next hi => cases h; exact .inl ⟨hi, rfl⟩
        · next hi =>
          have hi : s.acceptRequests.beginCycle.interrupted = false := by simpa using hi
          have hw := s.acceptRequests.beginCycle_fields.2.2.2.2.2.2.1
          split at h
          · next hp =>
            cases h
            rw [hw, State.acceptRequests_wfi] at hp
            exact .inr (.inl ⟨hi, hp, rfl⟩)
          · next hp =>
            rw [hw, State.acceptRequests_wfi] at hp
            exact .inr (.inr ⟨hi, by simpa using hp, h⟩)
  · cases h
  · cases h

end Sys2Proof.Machine
end

