-- ==== Sys2Proof/Laws/PerInstr.lean ====
section
/-!
SUPPORT. A statement about every instruction as syntax, one lemma per constructor: its length in halfwords
(30_encoding.md R70, R88).
-/

namespace Sys2Proof.Laws

open Sys2Proof

/-- The instruction is two halfwords long exactly when its mode is 10, and one otherwise, whatever its
opcode (30_encoding.md R70). -/
def EncodedLength.Statement (i : Instr) : Prop :=
  (encode i).length = if (instrFields i).o.isLong then 2 else 1

/-- The second halfword is there exactly in mode 10. -/
theorem EncodedLength.immWords_length (o : Operand2) :
    (immWords o).length = if o.isLong then 1 else 0 := by
  cases o <;> rfl

/-- The length of an encoding is that of its operand 2, and one halfword more. -/
theorem EncodedLength.of_operand2 (i : Instr) : EncodedLength.Statement i := by
  unfold EncodedLength.Statement encode
  rw [List.length_cons, EncodedLength.immWords_length]
  split <;> rfl

theorem EncodedLength.ldb (rd ra : Reg) (o : Operand2) :
    EncodedLength.Statement (.ldb rd ra o) := EncodedLength.of_operand2 _

theorem EncodedLength.ldh (rd ra : Reg) (o : Operand2) :
    EncodedLength.Statement (.ldh rd ra o) := EncodedLength.of_operand2 _

theorem EncodedLength.ldw (rd ra : Reg) (o : Operand2) :
    EncodedLength.Statement (.ldw rd ra o) := EncodedLength.of_operand2 _

theorem EncodedLength.stb (rd ra : Reg) (o : Operand2) :
    EncodedLength.Statement (.stb rd ra o) := EncodedLength.of_operand2 _

theorem EncodedLength.sth (rd ra : Reg) (o : Operand2) :
    EncodedLength.Statement (.sth rd ra o) := EncodedLength.of_operand2 _

theorem EncodedLength.stw (rd ra : Reg) (o : Operand2) :
    EncodedLength.Statement (.stw rd ra o) := EncodedLength.of_operand2 _

theorem EncodedLength.push (rd ra : Reg) (o : Operand2) :
    EncodedLength.Statement (.push rd ra o) := EncodedLength.of_operand2 _

theorem EncodedLength.pop (rd ra : Reg) (o : Operand2) :
    EncodedLength.Statement (.pop rd ra o) := EncodedLength.of_operand2 _

theorem EncodedLength.bnz (rd ra : Reg) (o : Operand2) :
    EncodedLength.Statement (.bnz rd ra o) := EncodedLength.of_operand2 _

theorem EncodedLength.wfi (rd ra : Reg) (o : Operand2) :
    EncodedLength.Statement (.wfi rd ra o) := EncodedLength.of_operand2 _

theorem EncodedLength.mskw (rd ra : Reg) (o : Operand2) :
    EncodedLength.Statement (.mskw rd ra o) := EncodedLength.of_operand2 _

theorem EncodedLength.mskr (rd ra : Reg) (o : Operand2) :
    EncodedLength.Statement (.mskr rd ra o) := EncodedLength.of_operand2 _

theorem EncodedLength.pndw (rd ra : Reg) (o : Operand2) :
    EncodedLength.Statement (.pndw rd ra o) := EncodedLength.of_operand2 _

theorem EncodedLength.pndr (rd ra : Reg) (o : Operand2) :
    EncodedLength.Statement (.pndr rd ra o) := EncodedLength.of_operand2 _

theorem EncodedLength.halt (rd ra : Reg) (o : Operand2) :
    EncodedLength.Statement (.halt rd ra o) := EncodedLength.of_operand2 _

theorem EncodedLength.invalid0f (rd ra : Reg) (o : Operand2) :
    EncodedLength.Statement (.invalid0f rd ra o) := EncodedLength.of_operand2 _

theorem EncodedLength.adc (rd ra : Reg) (o : Operand2) :
    EncodedLength.Statement (.adc rd ra o) := EncodedLength.of_operand2 _

theorem EncodedLength.sbc (rd ra : Reg) (o : Operand2) :
    EncodedLength.Statement (.sbc rd ra o) := EncodedLength.of_operand2 _

theorem EncodedLength.cmp (rd ra : Reg) (o : Operand2) :
    EncodedLength.Statement (.cmp rd ra o) := EncodedLength.of_operand2 _

theorem EncodedLength.land (rd ra : Reg) (o : Operand2) :
    EncodedLength.Statement (.land rd ra o) := EncodedLength.of_operand2 _

theorem EncodedLength.lor (rd ra : Reg) (o : Operand2) :
    EncodedLength.Statement (.lor rd ra o) := EncodedLength.of_operand2 _

theorem EncodedLength.lnot (rd ra : Reg) (o : Operand2) :
    EncodedLength.Statement (.lnot rd ra o) := EncodedLength.of_operand2 _

theorem EncodedLength.lsr (rd ra : Reg) (o : Operand2) :
    EncodedLength.Statement (.lsr rd ra o) := EncodedLength.of_operand2 _

theorem EncodedLength.lsl (rd ra : Reg) (o : Operand2) :
    EncodedLength.Statement (.lsl rd ra o) := EncodedLength.of_operand2 _

theorem EncodedLength.asr (rd ra : Reg) (o : Operand2) :
    EncodedLength.Statement (.asr rd ra o) := EncodedLength.of_operand2 _

theorem EncodedLength.ror (rd ra : Reg) (o : Operand2) :
    EncodedLength.Statement (.ror rd ra o) := EncodedLength.of_operand2 _

theorem EncodedLength.invalid1a (rd ra : Reg) (o : Operand2) :
    EncodedLength.Statement (.invalid1a rd ra o) := EncodedLength.of_operand2 _

theorem EncodedLength.invalid1b (rd ra : Reg) (o : Operand2) :
    EncodedLength.Statement (.invalid1b rd ra o) := EncodedLength.of_operand2 _

theorem EncodedLength.invalid1c (rd ra : Reg) (o : Operand2) :
    EncodedLength.Statement (.invalid1c rd ra o) := EncodedLength.of_operand2 _

theorem EncodedLength.invalid1d (rd ra : Reg) (o : Operand2) :
    EncodedLength.Statement (.invalid1d rd ra o) := EncodedLength.of_operand2 _

theorem EncodedLength.invalid1e (rd ra : Reg) (o : Operand2) :
    EncodedLength.Statement (.invalid1e rd ra o) := EncodedLength.of_operand2 _

theorem EncodedLength.invalid1f (rd ra : Reg) (o : Operand2) :
    EncodedLength.Statement (.invalid1f rd ra o) := EncodedLength.of_operand2 _

end Sys2Proof.Laws
end

