-- ==== Sys2Proof/Laws/Run.lean ====
section
/-!
SUPPORT. Runs of several steps: `Host.Core.run` one step from the front, and one step at the end.
-/

namespace Sys2Proof.Machine

open Sys2Proof

/-- A run that begins with a step to u goes on from u. -/
theorem run_of_step {s u : State} (k : Nat) (h : step s = .next u) :
    Host.Core.run Sys2Proof.core (k + 1) s = Host.Core.run Sys2Proof.core k u := by
  have h' : Sys2Proof.core.step s = .next u := h
  simp only [Host.Core.run, h']

/-- A run that reaches t goes on with a step of t. -/
theorem run_succ {s t : State} {k : Nat} (h : Host.Core.run Sys2Proof.core k s = .next t) :
    Host.Core.run Sys2Proof.core (k + 1) s = step t := by
  induction k generalizing s with
  | zero =>
    cases h
    cases hq : step t with
    | next u => rw [run_of_step 0 hq]; rfl
    | fault r =>
      have h' : Sys2Proof.core.step t = .fault r := hq
      simp only [Host.Core.run, h']
      rfl
    | refused r =>
      have h' : Sys2Proof.core.step t = .refused r := hq
      simp only [Host.Core.run, h']
      rfl
  | succ k ih =>
    cases hq : step s with
    | next u => rw [run_of_step k hq] at h; rw [run_of_step (k + 1) hq]; exact ih h
    | fault r =>
      have h' : Sys2Proof.core.step s = .fault r := hq
      simp only [Host.Core.run, h'] at h
      cases h
    | refused r =>
      have h' : Sys2Proof.core.step s = .refused r := hq
      simp only [Host.Core.run, h'] at h
      cases h

/-- F.HALT is clear after the beginning of a cycle exactly when the window at the advanced PC is in memory
and F.HALT was clear (44_cycle.md R173). -/
theorem State.beginCycle_halt_eq_false_iff (s : State) :
    s.beginCycle.halt = false ↔ s.halt = false ∧ s.advancedPc.toNat + 4 ≤ 65536 := by
  rw [s.beginCycle_fields.2.2.2.1]
  simp only [Config.memSize, Bool.or_eq_false_iff, decide_eq_false_iff_not, Nat.not_lt]

/-- External requests do not move the fetch address. -/
@[simp] theorem State.acceptRequests_advancedPc (s : State) : s.acceptRequests.advancedPc = s.advancedPc := by
  simp [State.advancedPc]

end Sys2Proof.Machine
end

