-- ==== Sys2Proof/Tests/Slice0.lean ====
section
/-!
SUPPORT. Small tests. The words are written out from 30_encoding.md R72 and R84 as op_rd_ra_rb_mode; the
values expected of one-step tests are those of spec/95_test_vectors.md (the vector is named) or are worked out
by hand from the rule named. `witness_<Name>` shows a state and operands that meet the hypotheses of
`Obligations.<Name>`.
-/

namespace Sys2Proof.Tests

open Sys2Proof Sys2Proof.Machine

/-! ### Helpers -/

/-- The test-only values of spec/95 for the OPEN parameters, and the spec's default switches. -/
def params : Config.Params :=
  { Config.defaults with stackBase := 0x0800, irqVector := 0x0040, hwWindowBase := 0xFF00 }

/-! The same with one switch at its alternative. -/

def bigEndian : Config.Params := { params with byteOrder := .big }
def wrapping : Config.Params := { params with oobPolicy := .wrap }
def readingPending : Config.Params := { params with op0dMode := .readPending }
def flowNop : Config.Params := { params with op0fMode := .flowNop }
def freezing : Config.Params := { params with wfiMode := .freeze }
def saturating : Config.Params := { params with shiftPolicy := .saturate }
def incrementing : Config.Params := { params with dispatchSpMode := .increment }
def external : Config.Params := { params with extIrq := .present }

/-- The state after reset with the test-only parameters. -/
def s0 : State := State.resetWith params

/-- The next state of an outcome, if it has one. -/
def next? (o : Host.Outcome State Fault Refusal) : Option State :=
  match o with
  | .next t    => some t
  | .fault _   => none
  | .refused _ => none

/-- The instruction of a window, executed. -/
def ran (hi lo : Halfword) (s : State) : Option State := next? (exec (decodeWindow hi lo) s)

/-! ### WellFormed (30_encoding.md R78, R79) -/

theorem test_short_too_big_refused : Instr.wellFormed (.adc .r1 .r2 (.short 4)) = false := by decide

theorem test_short_too_small_refused : Instr.wellFormed (.adc .r1 .r2 (.short (-5))) = false := by decide

theorem test_long_too_big_refused : Instr.wellFormed (.stw .r0 .r2 (.long 0 32768)) = false := by decide

theorem test_long_too_small_refused :
    Instr.wellFormed (.stw .r0 .r2 (.long 0 (-32769))) = false := by decide

theorem test_short_ends_accepted :
    Instr.wellFormed (.ldb .r1 .r2 (.short 3)) = true ∧
    Instr.wellFormed (.ror .pc .sp (.short (-4))) = true := by decide

theorem test_long_ends_accepted :
    Instr.wellFormed (.bnz .r0 .r2 (.long 7 32767)) = true ∧
    Instr.wellFormed (.invalid1f .r0 .r2 (.long 0 (-32768))) = true := by decide

/-! ### Every constructor's word, bit by bit (30_encoding.md R72, R77 to R80, R84) -/

theorem test_decode_ldb : decodeWindow 0b00000_001_010_000_00 0 = .ldb .r1 .r2 (.reg .r0) := by decide

theorem test_decode_ldh : decodeWindow 0b00001_001_011_000_00 0 = .ldh .r1 .r3 (.reg .r0) := by decide

theorem test_decode_ldw : decodeWindow 0b00010_111_001_000_00 0 = .ldw .pc .r1 (.reg .r0) := by decide

theorem test_decode_stb : decodeWindow 0b00011_000_001_111_01 0 = .stb .r0 .r1 (.short (-1)) := by decide

theorem test_decode_sth :
    decodeWindow 0b00100_000_001_000_10 0xBEEF = .sth .r0 .r1 (.long 0 (-16657)) := by decide

theorem test_decode_stw : decodeWindow 0b00101_000_001_010_00 0 = .stw .r0 .r1 (.reg .r2) := by decide

theorem test_decode_push : decodeWindow 0b00110_000_000_110_00 0 = .push .r0 .r0 (.reg .sp) := by decide

theorem test_decode_pop : decodeWindow 0b00111_110_000_000_00 0 = .pop .sp .r0 (.reg .r0) := by decide

theorem test_decode_bnz :
    decodeWindow 0b01000_000_001_000_10 0x0100 = .bnz .r0 .r1 (.long 0 256) := by decide

theorem test_decode_wfi : decodeWindow 0b01001_000_000_000_00 0 = .wfi .r0 .r0 (.reg .r0) := by decide

theorem test_decode_mskw : decodeWindow 0b01010_000_001_001_01 0 = .mskw .r0 .r1 (.short 1) := by decide

theorem test_decode_mskr : decodeWindow 0b01011_010_001_000_00 0 = .mskr .r2 .r1 (.reg .r0) := by decide

theorem test_decode_pndw : decodeWindow 0b01100_000_001_001_01 0 = .pndw .r0 .r1 (.short 1) := by decide

theorem test_decode_pndr : decodeWindow 0b01101_001_001_000_00 0 = .pndr .r1 .r1 (.reg .r0) := by decide

theorem test_decode_halt : decodeWindow 0b01110_010_000_000_00 0 = .halt .r2 .r0 (.reg .r0) := by decide

theorem test_decode_invalid0f :
    decodeWindow 0b01111_010_000_000_00 0 = .invalid0f .r2 .r0 (.reg .r0) := by decide

theorem test_decode_adc : decodeWindow 0b10000_001_010_000_10 0x0005 = .adc .r1 .r2 (.long 0 5) := by decide

theorem test_decode_sbc : decodeWindow 0b10001_011_001_010_00 0 = .sbc .r3 .r1 (.reg .r2) := by decide

theorem test_decode_cmp : decodeWindow 0b10010_011_001_111_01 0 = .cmp .r3 .r1 (.short (-1)) := by decide

theorem test_decode_land :
    decodeWindow 0b10011_011_001_000_10 0x8000 = .land .r3 .r1 (.long 0 (-32768)) := by decide

theorem test_decode_lor : decodeWindow 0b10100_011_001_000_11 0 = .lor .r3 .r1 (.invalid 0) := by decide

theorem test_decode_lnot : decodeWindow 0b10101_011_001_010_00 0 = .lnot .r3 .r1 (.reg .r2) := by decide

theorem test_decode_lsr : decodeWindow 0b10110_011_001_010_00 0 = .lsr .r3 .r1 (.reg .r2) := by decide

theorem test_decode_lsl :
    decodeWindow 0b10111_010_010_000_10 0x0010 = .lsl .r2 .r2 (.long 0 16) := by decide

theorem test_decode_asr : decodeWindow 0b11000_011_001_010_00 0 = .asr .r3 .r1 (.reg .r2) := by decide

theorem test_decode_ror : decodeWindow 0b11001_101_100_011_00 0 = .ror .r5 .r4 (.reg .r3) := by decide

theorem test_decode_invalid1a :
    decodeWindow 0b11010_001_000_000_00 0 = .invalid1a .r1 .r0 (.reg .r0) := by decide

theorem test_decode_invalid1b :
    decodeWindow 0b11011_000_111_100_01 0 = .invalid1b .r0 .pc (.short (-4)) := by decide

theorem test_decode_invalid1c :
    decodeWindow 0b11100_110_101_001_11 0 = .invalid1c .sp .r5 (.invalid 1) := by decide

theorem test_decode_invalid1d :
    decodeWindow 0b11101_100_011_101_10 0x7FFF = .invalid1d .r4 .r3 (.long 5 32767) := by decide

theorem test_decode_invalid1e :
    decodeWindow 0b11110_010_110_111_00 0 = .invalid1e .r2 .sp (.reg .pc) := by decide

theorem test_decode_invalid1f :
    decodeWindow 0b11111_011_000_000_00 0 = .invalid1f .r3 .r0 (.reg .r0) := by decide

/-- The example of 30_encoding.md R74. -/
theorem test_decode_bytes_little :
    decode .little [0x42, 0x81, 0x05, 0x00] = .ok (.adc .r1 .r2 (.long 0 5)) [] := by decide

theorem test_decode_bytes_big :
    decode .big [0x81, 0x42, 0x00, 0x05, 0x70] = .ok (.adc .r1 .r2 (.long 0 5)) [0x70] := by decide

theorem test_decode_truncated :
    decode .little [0x42, 0x81, 0x05] = .rejected .truncated ∧
    decode .little [0x42] = .rejected .truncated ∧ decode .big [] = .rejected .truncated := by decide

/-- The low half is ignored outside mode 10 (30_encoding.md R73). -/
theorem test_decode_lo_unused : decodeWindow 0x8128 0xFFFF = decodeWindow 0x8128 0 := by decide

theorem test_encode_adc : encode (.adc .r1 .r2 (.long 0 5)) = [0x8142, 0x0005] := by decide

theorem test_encode_cmp : encode (.cmp .r3 .r1 (.short (-1))) = [0x933D] := by decide

theorem test_table_word :
    decodeTableWord 16 0x8142 = some (.adc .r1 .r2 (.long 0 0)) ∧
    decodeTableWord 32 0x00058142 = some (.adc .r1 .r2 (.long 0 5)) := by decide

/-! ### Memory unit (41_memory_unit.md; spec/95 section 2.2) -/

/-- V-MEM-1. -/
theorem test_ldb :
    (ran 0x0140 0 { s0 with r2 := 0x10, mem := [(0x10, 0xAB)] }).map
      (fun t => (t.r1, t.storeReg)) = some (0xAB, true) := by decide

/-- V-MEM-2. -/
theorem test_ldh :
    (ran 0x0960 0 { s0 with r3 := 0x20, mem := [(0x20, 0x34), (0x21, 0x92)] }).map
      (fun t => t.r1) = some (0x9234) := by decide

/-- V-MEM-2 with BYTE_ORDER = big. -/
theorem test_ldh_big :
    (ran 0x0960 0 { s0 with r3 := 0x20, mem := [(0x20, 0x34), (0x21, 0x92)], params := bigEndian }).map
      (fun t => t.r1) = some (0x3492) := by decide

/-- V-MEM-3. -/
theorem test_ldw_last_word :
    (ran 0x1140 0 { s0 with r2 := 0xFFFC, mem := [(0xFFFC, 1), (0xFFFF, 0x80)] }).map
      (fun t => t.r1) = some (0x80000001) := by decide

/-- V-MEM-4. -/
theorem test_ldw_past_end :
    (ran 0x1140 0 { s0 with r2 := 0xFFFD, r1 := 9 }).map
      (fun t => (t.runState, t.r1)) = some (RunState.memFault, 9) := by decide

/-- V-MEM-6. -/
theorem test_stb :
    (ran 0x1828 0 { s0 with r1 := 0x30, r2 := 0x1234 }).map
      (fun t => (t.mem, t.r1, t.r2)) = some ([(0x30, 0x34)], 0x30, 0x1234) := by decide

/-- V-MEM-7. -/
theorem test_stb_short :
    (ran 0x183D 0 { s0 with r1 := 0x30 }).map (fun t => t.mem) = some ([(0x30, 0xFF)]) := by decide

/-- V-MEM-8. -/
theorem test_sth :
    (ran 0x2022 0xBEEF { s0 with r1 := 0x30 }).map
      (fun t => (t.mem, t.pcDouble)) = some ([(0x30, 0xEF), (0x31, 0xBE)], true) := by decide

/-- V-MEM-9. -/
theorem test_stw :
    (ran 0x2828 0 { s0 with r1 := 0x30, r2 := 0xCAFEF00D }).map
      (fun t => t.mem) = some ([(0x30, 0x0D), (0x31, 0xF0), (0x32, 0xFE), (0x33, 0xCA)]) := by decide

/-- V-MEM-10. -/
theorem test_push_old_sp :
    (ran 0x3018 0 { s0 with sp := 0x1000 }).map
      (fun t => (t.mem, t.sp)) = some ([(0x1001, 0x10)], 0x1004) := by decide

/-- V-MEM-11. -/
theorem test_push_past_end :
    (ran 0x3004 0 { s0 with sp := 0xFFFD, r1 := 1 }).map
      (fun t => (t.runState, t.mem, t.sp)) = some (RunState.memFault, [], 0xFFFD) := by decide

/-- V-MEM-12. -/
theorem test_pop_sp :
    (ran 0x3E00 0 { s0 with sp := 0x1000, mem := [(0x1000, 0x78), (0x1001, 0x56)] }).map
      (fun t => t.sp) = some (0x5678) := by decide

/-- V-MEM-13. -/
theorem test_pop_discard :
    (ran 0x3800 0 { s0 with sp := 0x1000 }).map
      (fun t => (t.sp, t.readReg .r0)) = some (0xFFC, 0) := by decide

/-! ### Flow-control unit (42_flow_control.md; spec/95 section 2.3) -/

/-- V-FLW-1. -/
theorem test_bnz_taken :
    (ran 0x4022 0x0100 { s0 with r1 := 1, pc := 0x10, pcHalt := false }).map
      (fun t => (t.pc, t.pcHalt)) = some (0x100, true) := by decide

/-- V-FLW-2. -/
theorem test_bnz_not_taken :
    (ran 0x4022 0x0100 { s0 with pc := 0x10, pcHalt := false }).map
      (fun t => (t.pc, t.pcHalt, t.advancedPc)) = some (0x10, false, 0x14) := by decide

/-- V-FLW-4. -/
theorem test_wfi : (ran 0x4800 0 s0).map (fun t => (t.wfi, t.storeReg)) = some (true, false) := by decide

/-- V-FLW-5. -/
theorem test_mskw : (ran 0x5025 0 { s0 with r1 := 3 }).map (fun t => t.mask) = some (9) := by decide

/-- V-FLW-6. -/
theorem test_mskw_index_16 :
    (ran 0x5025 0 { s0 with r1 := 16 }).map (fun t => t.mask) = some (1) := by decide

/-- V-FLW-8. -/
theorem test_mskr : (ran 0x5A00 0 s0).map (fun t => (t.r2, t.storeReg)) = some (1, true) := by decide

/-- V-FLW-9. -/
theorem test_mskr_index_31 :
    (ran 0x5A20 0 { s0 with r1 := 31, mask := 0xFFFF, r2 := 7 }).map
      (fun t => t.r2) = some (0) := by decide

/-- V-FLW-10. -/
theorem test_pndw_set :
    (ran 0x6025 0 { s0 with r1 := 5 }).map (fun t => t.pending) = some (0x20) := by decide

/-- V-FLW-11. -/
theorem test_pndw_clear :
    (ran 0x6001 0 { s0 with pending := 0x0009 }).map (fun t => t.pending) = some (8) := by decide

/-- V-FLW-12. -/
theorem test_pndr_mask :
    (ran 0x6920 0 { s0 with r1 := 5, pending := 0x20 }).map (fun t => t.r1) = some (0) := by decide

/-- V-FLW-12 with OP_0D_MODE = read_pending. -/
theorem test_pndr_pending :
    (ran 0x6920 0 { s0 with r1 := 5, pending := 0x20, params := readingPending }).map
      (fun t => t.r1) = some (1) := by decide

/-- V-FLW-14. -/
theorem test_halt :
    (ran 0x7000 0 { s0 with pc := 8 }).map
      (fun t => (t.halt, t.pc, t.runState)) = some (true, 8, RunState.running) := by decide

/-- V-FLW-15. -/
theorem test_invalid0f_fault :
    (ran 0x7A00 0 { s0 with r2 := 9, storeReg := true }).map
      (fun t => (t.r2, t.pending)) = some (0, 1) := by decide

/-- V-FLW-15 with OP_0F_MODE = flow_nop. -/
theorem test_invalid0f_nop :
    (ran 0x7A00 0 { s0 with r2 := 9, params := flowNop }).map
      (fun t => (t.r2, t.pending, t.storeReg)) = some (9, 0, false) := by decide

/-! ### ALU (43_alu.md; spec/95 section 2.4) -/

/-- V-ALU-2. -/
theorem test_adc_all_ones :
    (ran 0x8328 0 { s0 with r1 := 0xFFFFFFFF, r2 := 0xFFFFFFFF, carry := true }).map
      (fun t => (t.r3, t.carry)) = some (0xFFFFFFFF, true) := by decide

/-- V-DEC-6. -/
theorem test_adc_same_register :
    (ran 0x86C5 0 s0).map (fun t => (t.sp, t.carry)) = some (0x801, false) := by decide

/-- V-ALU-5. -/
theorem test_sbc_no_borrow :
    (ran 0x8B28 0 { s0 with r1 := 5, r2 := 3, carry := true }).map
      (fun t => (t.r3, t.carry)) = some (1, true) := by decide

/-- V-ALU-6. -/
theorem test_sbc_borrow :
    (ran 0x8B28 0 { s0 with carry := true }).map
      (fun t => (t.r3, t.carry)) = some (0xFFFFFFFF, false) := by decide

/-- V-SRC-4. -/
theorem test_cmp_less :
    (ran 0x9328 0 { s0 with r1 := 2, r2 := 0x80000000 }).map
      (fun t => t.r3) = some (0xFFFFFFFF) := by decide

/-- V-SRC-4. -/
theorem test_cmp_greater :
    (ran 0x9328 0 { s0 with r1 := 0x80000000, r2 := 2 }).map (fun t => t.r3) = some (1) := by decide

/-- V-DEC-3. -/
theorem test_and_long :
    (ran 0x9B22 0x8000 { s0 with r1 := 0xFFFFFFFF }).map
      (fun t => (t.r3, t.pcDouble)) = some (0xFFFF8000, true) := by decide

/-- V-ALU-9. -/
theorem test_or :
    (ran 0xA328 0 { s0 with r1 := 0xF0, r2 := 0x0F, carry := true }).map
      (fun t => (t.r3, t.carry)) = some (0xFF, true) := by decide

/-- V-DEC-5. -/
theorem test_or_invalid_mode :
    (ran 0xA323 0 { s0 with r1 := 1 }).map
      (fun t => (t.pending, t.pcDouble, t.storeReg)) = some (1, false, true) := by decide

/-- V-ALU-8. -/
theorem test_not : (ran 0xAB28 0 { s0 with r2 := 5 }).map (fun t => t.r3) = some (0xFFFFFFFF) := by decide

/-- spec/95, the table of shifts. -/
theorem test_lsr_33 :
    (ran 0xB328 0 { s0 with r1 := 0x80000001, r2 := 33 }).map
      (fun t => t.r3) = some (0x40000000) := by decide

/-- spec/95, the table of shifts. -/
theorem test_lsr_saturate :
    (ran 0xB328 0 { s0 with r1 := 0x80000001, r2 := 32, params := saturating }).map
      (fun t => t.r3) = some (0) := by decide

/-- spec/95, the table of shifts. -/
theorem test_lsl_31 :
    (ran 0xBB28 0 { s0 with r1 := 0x80000001, r2 := 31 }).map
      (fun t => t.r3) = some (0x80000000) := by decide

/-- spec/95, the table of shifts. -/
theorem test_lsl_saturate :
    (ran 0xBB28 0 { s0 with r1 := 0x80000001, r2 := 33, params := saturating }).map
      (fun t => t.r3) = some (0) := by decide

/-- spec/95, the table of shifts. -/
theorem test_asr_1 :
    (ran 0xC328 0 { s0 with r1 := 0x80000001, r2 := 1 }).map
      (fun t => t.r3) = some (0xC0000000) := by decide

/-- spec/95, the table of shifts. -/
theorem test_asr_saturate :
    (ran 0xC328 0 { s0 with r1 := 0x80000001, r2 := 32, params := saturating }).map
      (fun t => t.r3) = some (0xFFFFFFFF) := by decide

/-- spec/95, the table of shifts. -/
theorem test_ror_31 :
    (ran 0xCB28 0 { s0 with r1 := 0x80000001, r2 := 31 }).map (fun t => t.r3) = some (3) := by decide

/-- spec/95, after the table of shifts. -/
theorem test_ror_36_saturate :
    (ran 0xCB28 0 { s0 with r1 := 0x12345678, r2 := 36, params := saturating }).map
      (fun t => t.r3) = some (0x81234567) := by decide

/-- V-ALU-11. -/
theorem test_invalid1a :
    (ran 0xD100 0 { s0 with r1 := 9, storeReg := true }).map
      (fun t => (t.r1, t.pending)) = some (0, 1) := by decide

/-- 43_alu.md R156. -/
theorem test_invalid1b :
    (ran 0xD900 0 { s0 with r1 := 9 }).map
      (fun t => (t.r1, t.pending, t.storeReg)) = some (9, 1, false) := by decide

/-- 43_alu.md R156, writeback to PC. -/
theorem test_invalid1c :
    (ran 0xE702 0 { s0 with pc := 9, pcHalt := false, storeReg := true }).map
      (fun t => (t.pc, t.pcHalt, t.pcDouble)) = some (0, true, true) := by decide

/-- 43_alu.md R156 and the fault of mode 11. -/
theorem test_invalid1d :
    (ran 0xE803 0 { s0 with pending := 8 }).map (fun t => t.pending) = some (9) := by decide

/-- 43_alu.md R156: M does not gate P. -/
theorem test_invalid1e :
    (ran 0xF000 0 { s0 with mask := 0 }).map (fun t => (t.pending, t.mask)) = some (1, 0) := by decide

/-- V-ALU-10. -/
theorem test_invalid1f :
    (ran 0xFB00 0 { s0 with r3 := 9 }).map
      (fun t => (t.pending, t.storeReg, t.r3)) = some (1, false, 9) := by decide

/-! ### Cycles, dispatch and load (44_cycle.md, 60_exceptions.md, 70_reset_and_hazards.md) -/

/-- V-CYC-1 and cycle 1 of V-SRC-6. -/
theorem test_first_cycle_fetches_at_zero :
    (next? (step { s0 with mem := [(0, 0x0D), (1, 0xA1)] })).map (fun t => (t.r1, t.pc)) = some (3,
      0) := by decide

/-- V-SRC-8 with BYTE_ORDER = big. -/
theorem test_source_first_byte :
    (next? (step { s0 with mem := [(0, 0x01), (2, 0x70)], params := bigEndian })).map
      (fun t => t.r1) = some 1 := by decide

/-- V-CYC-3. -/
theorem test_end_guard :
    (next? (step { s0 with pc := 0xFFFC, pcHalt := false })).map (fun t => (t.pc, t.halt, t.runState)) =
      some (0xFFFE, true, .running) := by decide

theorem test_halted :
    (next? (step { s0 with halt := true })).map (fun t => t.runState) = some .halted ∧
    next? (step { s0 with runState := .halted }) = none := by decide

/-- V-FLW-4. -/
theorem test_parked :
    (next? (step { s0 with pc := 0x20, pcHalt := false, wfi := true })).map (fun t => (t.pc, t.pcHalt)) =
      some (0x22, false) := by decide

/-- V-IRQ-1. -/
theorem test_dispatch :
    (next? (step { s0 with mask := 9, pending := 8, pc := 0x10 })).map
      (fun t => (t.mem, t.sp, t.pc, t.pcHalt, t.pending)) = some ([(0x800, 0x10)], 0x7FC, 0x40, true,
      8) := by decide

/-- V-IRQ-2. -/
theorem test_dispatch_increment :
    (next? (step { s0 with pending := 1, pc := 0x10, params := incrementing })).map
      (fun t => (t.mem, t.sp)) = some ([(0x800, 0x10)], 0x804) := by decide

/-- V-IRQ-4. -/
theorem test_dispatch_past_end :
    (next? (step { s0 with pending := 1, pc := 0x10, sp := 0xFFFD })).map
      (fun t => (t.runState, t.mem, t.sp, t.pc)) = some (.memFault, [], 0xFFFD, 0x10) := by decide

theorem test_external_request :
    (next? (step { s0 with requests := [8], params := external })).map
      (fun t => (t.pending, t.requests)) = some (8, []) := by decide

/-- 70_reset_and_hazards.md R222: the image is copied, memory beyond it is kept. -/
theorem test_load :
    (next? (hostLoad [0x02, 0x00, 0x05] { s0 with mem := [(1, 7), (9, 1)] })).map (fun t => t.mem) =
      some [(0, 2), (2, 5), (9, 1)] := by decide

theorem test_with_fetch_word :
    (next? (step (State.reset.withFetchWord 32 0x00058142))).map (fun t => (t.r1, t.pcDouble)) =
      some (5, true) := by decide

theorem test_memory_write_removes_zero :
    Memory.writeByte (Memory.writeByte [] 5 7) 5 0 = [] ∧ Memory.wf (Memory.writeByte [(3,
      1)] 2 7) := by decide

/-! ### States and operands that meet the hypotheses of the statements -/

theorem witness_DecodeEncodeRoundTrip :
    Instr.wellFormed (.sth .r0 .pc (.long 5 (-32768))) = true ∧
    Instr.wellFormed (.adc .r1 .r2 (.short (-4))) = true := by decide

theorem witness_OperandTwoByMode :
    modeField 0x8128 = 0#2 ∧ modeField 0x8131 = 1#2 ∧ (rbField 0x8131).getLsbD 2 = true ∧
    modeField 0x812D = 1#2 ∧ (rbField 0x812D).getLsbD 2 = false ∧ modeField 0x8142 = 2#2 := by decide

/-- Mode 11, an invalid opcode, mode 10, and a PNDW of bit 15 in mode 11. -/
theorem witness_EveryOpcodeDecodesItsMode :
    ∃ s : State, 0 < 16 ∧ 15 < 16 ∧ raisesFault s.params (.ror .r1 .r2 (.invalid 0)) = true ∧
    raisesFault s.params (.invalid0f .r1 .r2 (.long 0 5)) = true ∧
    raisesFault s.params (.land .r1 .r2 (.long 0 5)) = false ∧
    (instrFields (.pndw .r1 .r2 (.invalid 0))).op = 12#5 ∧
    (s.readReg (instrFields (.pndw .r1 .r2 (.invalid 0))).ra).toNat ≠ 0 :=
  ⟨{ s0 with r2 := 15 }, by decide⟩

theorem witness_NextFetchIsPastTheInstruction :
    ∃ s t : State, s.pcHalt = false ∧ s.pcDouble = false ∧
    exec (.sth .r0 .r1 (.long 0 5)) s = .next t ∧ t.runState = s.runState ∧ t.pcHalt = false :=
  ⟨{ s0 with pcHalt := false }, _, by decide, by decide, rfl, by decide, by decide⟩

theorem witness_StoredBytesByByteOrder : 4 ≤ 4 ∧ 0 ≤ 4 ∧ 0 < 4 ∧ 3 < 4 := by decide

theorem witness_StoreThenReadGivesValue : 4 ≤ 4 ∧ 0 ≤ 4 := by decide

theorem witness_LittleEndianMixedWidths :
    s0.params.byteOrder = .little ∧ (0xFFFC#32).toNat + 4 ≤ 65536 := by decide

/-- The last window in memory, behind an advance by 4. -/
theorem witness_FetchSeesEarlierStores :
    ∃ s : State, s.windowFits ∧ s.advancedPc = 0xFFFC :=
  ⟨{ s0 with pc := 0xFFF8, pcHalt := false, pcDouble := true }, by decide⟩

/-- The last address in range of each width. -/
theorem witness_LoadsWidenWithZeros :
    ∃ s u v : State, s.accessAllowed (s.operand1 .r2) 1 = true ∧ u.accessAllowed (u.operand1 .r2) 2 = true ∧
    v.accessAllowed (v.operand1 .r2) 4 = true :=
  ⟨{ s0 with r2 := 0xFFFF }, { s0 with r2 := 0xFFFE }, { s0 with r2 := 0xFFFC }, by decide⟩

/-- The last address in range, and one past it with OOB_POLICY = wrap. -/
theorem witness_StoresWriteLowBytes :
    ∃ s u v : State, s.accessAllowed (s.operand1 .r2) 1 = true ∧ u.accessAllowed (u.operand1 .r2) 2 = true ∧
    v.accessAllowed (v.operand1 .r2) 4 = true ∧ v.params.oobPolicy = .wrap :=
  ⟨{ s0 with r2 := 0xFFFF }, { s0 with r2 := 0xFFFE }, { s0 with r2 := 0xFFFD, params := wrapping },
    by decide⟩

/-- The last stack slot in range, and one past it with OOB_POLICY = wrap. -/
theorem witness_PushWritesAtSpThenGrows :
    ∃ s u : State, s.accessAllowed s.sp 4 = true ∧ u.accessAllowed u.sp 4 = true ∧
      u.params.oobPolicy = .wrap :=
  ⟨{ s0 with sp := 0xFFFC }, { s0 with sp := 0xFFFD, params := wrapping }, by decide⟩

theorem witness_PopReadsAtSpThenShrinks :
    ∃ s : State, s.accessAllowed s.sp 4 = true ∧ s.sp.toNat = 0xFFFC :=
  ⟨{ s0 with sp := 0xFFFC }, by decide⟩

/-- The first address out of range. -/
theorem witness_OutOfRangeAccessStopsTheRun :
    ∃ s u : State, (dataAccess s (.ldw .r1 .r2 (.invalid 0)) = some (0xFFFD, 4) ∧ s.params.oobPolicy = .stop ∧
      65536 < (0xFFFD#32).toNat + 4) ∧
    (dataAccess u (.sth .r1 .r2 (.reg .r0)) = some (0xFFFF, 2) ∧ u.params.oobPolicy = .stop ∧
      65536 < (0xFFFF#32).toNat + 2) :=
  ⟨{ s0 with r2 := 0xFFFD }, { s0 with r2 := 0xFFFF }, by decide⟩

theorem witness_OnlyOutOfRangeAccessStops :
    ∃ s u : State, (∀ a n, dataAccess s (.ldw .r1 .r2 (.reg .r0)) = some (a, n) →
      s.params.oobPolicy = .wrap ∨ a.toNat + n ≤ 65536) ∧
    (∀ a n, dataAccess u (.ldw .r1 .r2 (.reg .r0)) = some (a, n) →
      u.params.oobPolicy = .wrap ∨ a.toNat + n ≤ 65536) :=
  ⟨{ s0 with r2 := 0xFFFC }, { s0 with r2 := 0xFFFD, params := wrapping },
    by rintro a n ⟨⟩; decide, by rintro a n ⟨⟩; decide⟩

theorem witness_PushThenPopReadsTheWordAbove :
    ({ s0 with sp := 0xFFF8 } : State).sp.toNat + 8 ≤ 65536 ∧ Reg.r1 ≠ .r0 ∧ Reg.r1 ≠ .sp := by decide

theorem witness_MaskAndPendingBitWrites :
    (({ s0 with r1 := 15 } : State).readReg .r1).toNat = 15 ∧
      (({ s0 with r1 := 16 } : State).readReg .r1).toNat = 16 ∧ 15 < 16 := by decide

theorem witness_MaskAndPendingBitReads :
    s0.params.op0dMode = .readMask ∧
    ({ s0 with params := readingPending } : State).params.op0dMode = .readPending := by decide

theorem witness_InvalidOpcodesRaiseFault : s0.params.op0fMode = .aluFault := by decide

theorem witness_OpcodeFifteenAsNoOperation :
    ({ s0 with params := flowNop } : State).params.op0fMode = .flowNop := by decide

theorem witness_AddWithCarry :
    (Operand2.reg .r2).isInvalid = false ∧ (Operand2.long 0 (-32768)).isInvalid = false := by decide

theorem witness_SubtractWithBorrow :
    (Operand2.reg .r2).isInvalid = false ∧ (Operand2.short (-4)).isInvalid = false := by decide

theorem witness_AddChainsThroughCarry :
    Reg.r1 ≠ .r0 ∧ Reg.r2 ≠ .r0 ∧ Reg.r2 ≠ .r1 ∧ Reg.r2 ≠ .r1 ∧ Reg.r4 ≠ .r1 := by decide

theorem witness_CompareIsUnsigned :
    (s0.operand2 (.short 0)).toNat < (({ s0 with r1 := 1 } : State).readReg .r1).toNat ∧
    (s0.readReg .r0).toNat = (s0.operand2 (.short 0)).toNat ∧
    (s0.readReg .r0).toNat < (s0.operand2 (.short (-1))).toNat := by decide

theorem witness_CompareIsAntisymmetric : Reg.r3 ≠ .r0 := by decide

theorem witness_RotateMovesEveryBit : 0 < 32 ∧ 31 < 32 := by decide

theorem witness_LogicIsBitwise : 0 < 32 ∧ 31 < 32 := by decide

theorem witness_OnlyAdcAndSbcUseCarry :
    (∃ t, exec (.invalid1f .r1 .r2 (.reg .r0)) s0 = .next t) ∧ (∃ t,
      exec (.adc .r1 .r2 (.reg .r0)) s0 = .next t) ∧
    16 ≤ (instrFields (.adc .r1 .r2 (.reg .r0))).op.toNat ∧
      16 ≤ (instrFields (.invalid1f .r1 .r2 (.reg .r0))).op.toNat ∧
    (instrFields (.cmp .r1 .r2 (.reg .r0))).op ≠ 16#5 ∧ (instrFields (.cmp .r1 .r2 (.reg .r0))).op ≠ 17#5 ∧
    (∃ t, exec (.cmp .r1 .r2 (.reg .r0)) s0 = .next t) :=
  ⟨⟨_, rfl⟩, ⟨_, rfl⟩, by decide, by decide, by decide, by decide, ⟨_, rfl⟩⟩

theorem witness_StepRunsTheDecodedInstruction :
    ∃ s : State, s.live ∧ s.windowFits ∧ s.acceptRequests.mask &&& s.acceptRequests.pending = 0 ∧
      s.wfi = false ∧
    Instr.wellFormed (.adc .r1 .r2 (.long 0 5)) = true ∧
    decode s.params.byteOrder (Memory.readFrom s.mem s.advancedPc.toNat 0 4) = .ok (.adc .r1 .r2 (.long 0
      5)) [] :=
  ⟨{ s0 with mem := [(0xFFFC, 0x42), (0xFFFD, 0x81), (0xFFFE, 0x05)], pc := 0xFFFC }, by decide, by decide,
    by decide,
    by decide, by decide, by decide⟩

theorem witness_HaltFlagStopsTheRun :
    ∃ s u : State, (s.runState = .running ∧ s.halt = true ∧ s.params.extIrq = .absent) ∧
    (u.runState = .running ∧ u.halt = true ∧ u.params.extIrq = .present) :=
  ⟨{ s0 with halt := true }, { s0 with halt := true, requests := [8], params := external }, by decide⟩

theorem witness_TerminalRunStatesRunNoCycle :
    ({ s0 with runState := .halted } : State).runState = .halted ∧
    ({ s0 with runState := .memFault } : State).runState = .memFault := by decide

theorem witness_EndOfMemoryHalts :
    ∃ s : State, s.live ∧ s.params.extIrq = .absent ∧ ¬ s.windowFits :=
  ⟨{ s0 with pc := 0xFFFD }, by decide, by decide, by decide⟩

theorem witness_ParkedCycleExecutesNothing :
    ∃ s u : State, (s.live ∧ s.windowFits ∧ s.wfi = true ∧
      s.acceptRequests.mask &&& s.acceptRequests.pending = 0 ∧
      s.params.wfiMode = .advance) ∧
    (u.live ∧ u.windowFits ∧ u.wfi = true ∧ u.acceptRequests.mask &&& u.acceptRequests.pending = 0 ∧
      u.params.wfiMode = .freeze) :=
  ⟨{ s0 with wfi := true }, { s0 with wfi := true, params := freezing }, by decide, by decide⟩

theorem witness_InterruptCheckComesFirst :
    ∃ s u v : State,
    (s.runState = .running ∧ s.acceptRequests.mask &&& s.acceptRequests.pending ≠ 0 ∧ s.halt = false ∧
      s.windowFits) ∧
    (u.runState = .running ∧ u.acceptRequests.mask &&& u.acceptRequests.pending ≠ 0 ∧ u.halt = true) ∧
    (v.runState = .running ∧ v.acceptRequests.mask &&& v.acceptRequests.pending ≠ 0 ∧ v.halt = false ∧
      ¬ v.windowFits) :=
  ⟨{ s0 with pending := 1, pc := 0xFFFC }, { s0 with pending := 1, halt := true },
    { s0 with pending := 1, pc := 0xFFFD },
    by decide, by decide, by decide⟩

theorem witness_DispatchSavesPcAndEntersHandler :
    ({ s0 with sp := 0xFFFC } : State).accessAllowed 0xFFFC 4 = true ∧ s0.params.dispatchSpMode = .decrement ∧
    ({ s0 with params := incrementing } : State).params.dispatchSpMode = .increment ∧
    ({ s0 with sp := 0xFFFD } : State).accessAllowed 0xFFFD 4 = false := by decide

/-- The hypotheses of `Obligations.FaultIsTakenNextCycle`. -/
abbrev faults (s t : State) (i : Instr) : Prop :=
  s.live ∧ s.params.extIrq = .absent ∧ s.windowFits ∧ s.wfi = false ∧ s.mask &&& s.pending = 0 ∧
    s.beginCycle.fetched = i ∧ raisesFault s.params i = true ∧
    ((instrFields i).op = 10#5 ∨ (instrFields i).op = 12#5 → s.beginCycle.readReg (instrFields i).ra ≠ 0) ∧
    s.mask.getLsbD 0 = true ∧ t.live ∧ t.windowFits

/-- An invalid opcode, mode 11, and mode 11 of a PNDW that writes no bit. -/
theorem witness_FaultIsTakenNextCycle :
    ∃ s t u v w x : State, (step s = .next t ∧ faults s t (.invalid1a .r0 .r0 (.reg .r0))) ∧
    (step u = .next v ∧ faults u v (.lor .r3 .r0 (.invalid 0))) ∧
    (step w = .next x ∧ faults w x (.pndw .r0 .r1 (.invalid 0))) :=
  ⟨{ s0 with mem := [(1, 0xD0)] }, _, { s0 with mem := [(0, 0x03), (1, 0xA3)] }, _,
    { s0 with r1 := 16, mem := [(0, 0x23), (1, 0x60)] }, _, ⟨rfl, by decide⟩, ⟨rfl, by decide⟩, ⟨rfl,
      by decide⟩⟩

theorem witness_SoftwareReturnRestoresPcAndSp :
    ∃ s u : State, (s.accessAllowed s.sp 4 = true ∧ s.params.dispatchSpMode = .decrement ∧ s.sp = 0) ∧
    (u.accessAllowed u.sp 4 = true ∧ u.params.dispatchSpMode = .increment ∧ u.sp = 0xFFFC) :=
  ⟨{ s0 with sp := 0 }, { s0 with sp := 0xFFFC, params := incrementing }, by decide⟩

theorem witness_ExternalRequestsOnlySetBits :
    ∃ s u : State, (s0.runState = .running ∧ s0.params.extIrq = .absent) ∧
    (s.runState = .running ∧ s.params.extIrq = .present ∧ s.requests = []) ∧
    (u.runState = .running ∧ u.params.extIrq = .present ∧ u.requests = [8]) :=
  ⟨{ s0 with params := external },
    { s0 with requests := [8], params := external }, by decide, by decide, by decide⟩

theorem witness_EndlessDispatchExhaustsTheStack :
    ∃ s : State, s.live ∧ s.windowFits ∧ s.params.extIrq = .absent ∧ s.params.oobPolicy = .stop ∧
    s.params.dispatchSpMode = .decrement ∧ s.mask &&& s.pending ≠ 0 ∧ s.sp.toNat ≤ 0xFFFC ∧
      0x3FFF ≤ s.sp.toNat / 4 :=
  ⟨{ s0 with pending := 1, sp := 0xFFFC }, by decide, by decide, by decide, by decide, by decide, by decide,
    by decide,
    by decide⟩

theorem witness_AdvancingWaitRunsToTheEnd :
    ∃ s : State, s.live ∧ s.windowFits ∧ s.params.extIrq = .absent ∧ s.params.wfiMode = .advance ∧
      s.wfi = true ∧
    s.mask &&& s.pending = 0 ∧ s.advancedPc.toNat + 2 * 0x7FFE ≤ 0xFFFC :=
  ⟨{ s0 with wfi := true }, by decide, by decide, by decide, by decide, by decide, by decide, by decide⟩

theorem witness_FrozenWaitNeverEnds :
    ∃ s : State, s.live ∧ s.windowFits ∧ s.params.extIrq = .absent ∧ s.params.wfiMode = .freeze ∧
      s.wfi = true ∧
    s.mask &&& s.pending = 0 :=
  ⟨{ s0 with wfi := true, params := freezing }, by decide, by decide, by decide, by decide,
    by decide, by decide⟩

/-- `PNDW R1, #0` with R1 = 3. -/
theorem witness_PendingClearedOnlyByPndw :
    ∃ s t : State, step s = .next t ∧ s.pending.getLsbD 3 = true ∧ t.pending.getLsbD 3 = false :=
  ⟨{ s0 with pending := 8, r1 := 3, mem := [(0, 0x21), (1, 0x60)] }, _, rfl, by decide, by decide⟩

/-- `MSKW R0, #0`, `SBC R0, R0, R0`, and a dispatch out of a wait. -/
theorem witness_ControlBitsHaveFewWriters :
    ∃ s t u v w x : State, (step s = .next t ∧ t.mask ≠ s.mask) ∧ (step u = .next v ∧ v.carry ≠ u.carry) ∧
    (step w = .next x ∧ w.wfi = true ∧ x.wfi = false) :=
  ⟨{ s0 with mem := [(0, 0x01), (1, 0x50)] }, _, { s0 with mem := [(1, 0x88)] }, _,
    { s0 with wfi := true, pending := 1 }, _,
    ⟨rfl, by decide⟩, ⟨rfl, by decide⟩, ⟨rfl, by decide, by decide⟩⟩

/-- `WFI`, `HALT`, and the end-of-memory guard. -/
theorem witness_ControlBitsHaveFewWriters_sets :
    ∃ s t u v w x : State, (step s = .next t ∧ s.wfi = false ∧ t.wfi = true) ∧
    (step u = .next v ∧ u.halt = false ∧ v.halt = true ∧ u.windowFits) ∧
    (step w = .next x ∧ w.halt = false ∧ x.halt = true ∧ ¬ w.windowFits) :=
  ⟨{ s0 with mem := [(1, 0x48)] }, _, { s0 with mem := [(1, 0x70)] }, _, { s0 with pc := 0xFFFD }, _,
    ⟨rfl, by decide⟩, ⟨rfl, by decide⟩, ⟨rfl, by decide⟩⟩

theorem witness_StickyStoreRegIsNeverCleared :
    ∃ s t : State, s.params.storeRegMode = .sticky ∧ s.storeReg = true ∧ step s = .next t :=
  ⟨{ s0 with storeReg := true }, _, by decide, by decide, rfl⟩

theorem witness_PcWrittenOnlyByBranchOrWriteback :
    ∃ t u : State, (exec (.bnz .r0 .r1 (.long 0 256)) { s0 with r1 := 1 } = .next t ∧ t.pc ≠ 0) ∧
    (exec (.lor .pc .r0 (.long 0 256)) s0 = .next u ∧ u.pc ≠ s0.pc) :=
  ⟨_, _, ⟨rfl, by decide⟩, ⟨rfl, by decide⟩⟩

theorem witness_PendingIsUnreadable : s0.params.op0dMode = .readMask := by decide

theorem witness_StepKeepsTheInvariant :
    s0.Inv ∧ ∃ t, step s0 = .next t :=
  ⟨⟨by decide, by decide, by decide, by decide⟩, _, rfl⟩

theorem witness_AdvanceNeverWraps :
    ∃ s : State, s.Inv ∧ s.live ∧ s.pcHalt = false :=
  ⟨{ s0 with pc := 0xFFFC, pcHalt := false, pcDouble := true }, ⟨by decide, by decide, by decide, by decide⟩,
    by decide,
    by decide⟩

theorem witness_LoadPlacesTheImage :
    (List.replicate 65536 (0 : Byte)).length ≤ 65536 ∧ 65536 < (List.replicate 65537 (0 : Byte)).length :=
  ⟨by rw [List.length_replicate], by rw [List.length_replicate]; decide⟩

end Sys2Proof.Tests
end

section
/-!
PROOFS. The statements about the state of the core (10_state.md): R0 and the write port, reset, the terminal run
states, and who writes PC, P, M, C, F.STORE_REG, F.WFI and F.HALT.

The plan: what an instruction does to each of these is read off `ExecShape`, what a step does to them off
`step_cases`, and each statement puts one of the first kind and one of the second together.
-/

namespace Sys2Proof.Machine

open Sys2Proof

/-! ### The beginning of a cycle and dispatch, field by field (44_cycle.md R172 to R174; 60_exceptions.md R196) -/

@[simp] theorem State.beginCycle_mask (s : State) : s.beginCycle.mask = s.mask := by
  simp [State.beginCycle]

@[simp] theorem State.beginCycle_pending (s : State) : s.beginCycle.pending = s.pending := by
  simp [State.beginCycle]

@[simp] theorem State.beginCycle_carry (s : State) : s.beginCycle.carry = s.carry := by
  simp [State.beginCycle]

@[simp] theorem State.beginCycle_wfi (s : State) : s.beginCycle.wfi = s.wfi := by
  simp [State.beginCycle]

@[simp] theorem State.beginCycle_params (s : State) : s.beginCycle.params = s.params := by
  simp [State.beginCycle]

/-- With STORE_REG_MODE = sticky the single-shot clear passes F.STORE_REG over (R29, R174). -/
theorem State.beginCycle_storeReg_of_sticky (s : State) (h : s.params.storeRegMode = .sticky) :
    s.beginCycle.storeReg = s.storeReg := by
  simp [State.beginCycle, h]

@[simp] theorem State.dispatch_mask (s : State) : s.dispatch.mask = s.mask := by
  unfold State.dispatch; split <;> rfl

@[simp] theorem State.dispatch_pending (s : State) : s.dispatch.pending = s.pending := by
  unfold State.dispatch; split <;> rfl

@[simp] theorem State.dispatch_carry (s : State) : s.dispatch.carry = s.carry := by
  unfold State.dispatch; split <;> rfl

@[simp] theorem State.dispatch_storeReg (s : State) : s.dispatch.storeReg = s.storeReg := by
  unfold State.dispatch; split <;> rfl

@[simp] theorem State.dispatch_halt (s : State) : s.dispatch.halt = s.halt := by
  unfold State.dispatch; split <;> rfl

@[simp] theorem State.dispatch_params (s : State) : s.dispatch.params = s.params := by
  unfold State.dispatch; split <;> rfl

/-- A dispatch clears F.WFI or, where its push stops, keeps it; it never sets it (R30, R196). -/
@[simp] theorem State.dispatch_wfi (s : State) :
    s.dispatch.wfi = (s.wfi && !s.accessAllowed s.sp 4) := by
  cases h : s.accessAllowed s.sp 4 <;> simp [State.dispatch, h]

/-- External requests set bits of P and clear none (60_exceptions.md R198). -/
theorem State.acceptRequests_pending_keeps_set (s : State) {k : Nat} (h : s.pending.getLsbD k = true) :
    s.acceptRequests.pending.getLsbD k = true := by
  unfold State.acceptRequests
  split
  · exact h
  · split
    · exact h
    · simp [h]

/-! ### What an instruction does to one part of the state -/

/-- M is written by MSKW only (10_state.md R33). -/
theorem exec_mask_eq_or_mskw {i : Instr} {s t : State} (h : exec i s = .next t) :
    t.mask = s.mask ∨ ∃ rd ra o, i = .mskw rd ra o := by
  cases shape_of_exec h with
  | mask m hi => exact .inr hi
  | _ => left; simp [decoded]

/-- C is written by ADC and SBC only (10_state.md R32). -/
theorem exec_carry_eq_or_adc_or_sbc {i : Instr} {s t : State} (h : exec i s = .next t) :
    t.carry = s.carry ∨ ∃ rd ra o, i = .adc rd ra o ∨ i = .sbc rd ra o := by
  cases shape_of_exec h with
  | sum c v hi => exact .inr hi
  | _ => left; simp [decoded]

/-- F.WFI is written by WFI only (10_state.md R30). -/
theorem exec_wfi_eq_or_wfi {i : Instr} {s t : State} (h : exec i s = .next t) :
    t.wfi = s.wfi ∨ ∃ rd ra o, i = .wfi rd ra o := by
  cases shape_of_exec h with
  | wfi hi => exact .inr hi
  | _ => left; simp [decoded]

/-- F.HALT is written by HALT only (10_state.md R31). -/
theorem exec_halt_eq_or_halt {i : Instr} {s t : State} (h : exec i s = .next t) :
    t.halt = s.halt ∨ ∃ rd ra o, i = .halt rd ra o := by
  cases shape_of_exec h with
  | halt hi => exact .inr hi
  | _ => left; simp [decoded]

/-- No instruction writes a parameter (10_state.md R38). -/
theorem exec_params {i : Instr} {s t : State} (h : exec i s = .next t) : t.params = s.params := by
  cases shape_of_exec h <;> simp [decoded]

/-- No instruction clears F.STORE_REG (10_state.md R29). -/
theorem exec_storeReg_keeps_set {i : Instr} {s t : State} (h : exec i s = .next t)
    (hs : s.storeReg = true) : t.storeReg = true := by
  cases shape_of_exec h <;> simp [decoded, hs]

/-- The decoder clears no bit of P (30_encoding.md R80). -/
theorem decoded_pending_keeps_set (i : Instr) {s : State} {k : Nat} (h : s.pending.getLsbD k = true) :
    (decoded i s).pending.getLsbD k = true := by
  unfold decoded
  rw [State.afterDecode_pending]
  split <;> simp [h]

/-- An instruction that clears bit k of P is PNDW with bit index k (42_flow_control.md R124). -/
theorem exec_pending_keeps_set_or_pndw {i : Instr} {s t : State} {k : Nat} (h : exec i s = .next t)
    (hk : s.pending.getLsbD k = true) :
    t.pending.getLsbD k = true ∨ ∃ rd ra o, i = .pndw rd ra o ∧ (s.readReg ra).toNat = k := by
  have hd := decoded_pending_keeps_set i hk
  cases shape_of_exec h with
  | pending b hi =>
    obtain ⟨rd, ra, o, rfl⟩ := hi
    by_cases hra : (s.readReg ra).toNat = k
    · exact .inr ⟨rd, ra, o, rfl, hra⟩
    · left
      rw [State.finishNoResult_pending, State.withPending_pending,
        getLsbD_writeLine _ _ _ _ (BitVec.lt_of_getLsbD hk)]
      exact (if_neg hra).trans hd
  | _ => left; simp [hd]

/-- If a writeback changes PC, it was a writeback to PC with F.STORE_REG set, and it has set F.PC_HALT
(10_state.md R23, R27; 44_cycle.md R182). -/
theorem State.writeback_changes_pc {s : State} {rd : Reg} {v : Word} (h : (s.writeback rd v).pc ≠ s.pc) :
    (s.writeback rd v).pcHalt = true ∧ rd = .pc ∧ (s.writeback rd v).storeReg = true := by
  have hpc := s.writeback_readReg rd v .pc
  simp only [State.readReg_pc] at hpc
  have hw : s.storeReg = true ∧ rd = .pc := by
    by_contra hn
    exact h (hpc.trans (if_neg fun ⟨hs, hr, _⟩ => hn ⟨hs, hr.symm⟩))
  obtain ⟨hs, rfl⟩ := hw
  simp [hs]

/-! ### What a step does to them -/

/-- M, P, C and the parameters are the same in both states. -/
structure KeepsControl (s t : State) : Prop where
  mask    : t.mask = s.mask
  pending : t.pending = s.pending
  carry   : t.carry = s.carry
  params  : t.params = s.params

/-- A step that runs no instruction keeps M, P, C and the parameters, once the requests of this cycle are in P. -/
theorem step_keepsControl_or_executes {s t : State} (h : step s = .next t) :
    KeepsControl s.acceptRequests t ∨
      exec s.acceptRequests.beginCycle.fetched
        (s.acceptRequests.beginCycle.noteDecoded s.acceptRequests.beginCycle.fetched) = .next t := by
  obtain ⟨-, ⟨-, rfl⟩ | ⟨-, -, rfl⟩ | ⟨-, -, ⟨-, rfl⟩ | ⟨-, -, rfl⟩ | ⟨-, -, hexec⟩⟩⟩ := step_cases h
  · exact .inl ⟨rfl, rfl, rfl, rfl⟩
  · exact .inl ⟨by simp, by simp, by simp, by simp⟩
  · exact .inl ⟨by simp, by simp, by simp, by simp⟩
  · exact .inl ⟨by simp, by simp, by simp, by simp⟩
  · exact .inr hexec

theorem step_mask_eq_or_mskw {s t : State} (h : step s = .next t) :
    t.mask = s.mask ∨ ∃ rd ra o, s.acceptRequests.beginCycle.fetched = .mskw rd ra o := by
  rcases step_keepsControl_or_executes h with hkeep | hexec
  · exact .inl (by simp [hkeep.mask])
  · simpa using exec_mask_eq_or_mskw hexec

theorem step_carry_eq_or_adc_or_sbc {s t : State} (h : step s = .next t) :
    t.carry = s.carry ∨ ∃ rd ra o, s.acceptRequests.beginCycle.fetched = .adc rd ra o ∨
      s.acceptRequests.beginCycle.fetched = .sbc rd ra o := by
  rcases step_keepsControl_or_executes h with hkeep | hexec
  · exact .inl (by simp [hkeep.carry])
  · simpa using exec_carry_eq_or_adc_or_sbc hexec

theorem step_params {s t : State} (h : step s = .next t) : t.params = s.params := by
  rcases step_keepsControl_or_executes h with hkeep | hexec
  · simp [hkeep.params]
  · simpa using exec_params hexec

/-- A parked core runs no instruction, so F.WFI changes in two ways: a dispatch clears it, or WFI sets it. -/
theorem step_wfi_cases {s t : State} (h : step s = .next t) :
    t.wfi = s.wfi ∨ (t.wfi = false ∧ t = s.acceptRequests.beginCycle.dispatch) ∨
      (s.wfi = false ∧ ∃ rd ra o, s.acceptRequests.beginCycle.fetched = .wfi rd ra o) := by
  obtain ⟨-, ⟨-, rfl⟩ | ⟨-, -, rfl⟩ | ⟨-, -, ⟨-, rfl⟩ | ⟨-, -, rfl⟩ | ⟨-, hw, hexec⟩⟩⟩ := step_cases h
  · exact .inl (by simp)
  · exact .inl (by simp)
  · cases hd : s.acceptRequests.beginCycle.dispatch.wfi with
    | false => exact .inr (.inl ⟨rfl, rfl⟩)
    | true =>
      rw [State.dispatch_wfi, Bool.and_eq_true, State.beginCycle_wfi, State.acceptRequests_wfi] at hd
      exact .inl hd.1.symm
  · exact .inl (by simp)
  · rcases exec_wfi_eq_or_wfi hexec with heq | hi
    · exact .inl (by simpa using heq)
    · exact .inr (.inr ⟨hw, hi⟩)

/-- A cycle that begins with F.HALT set only enters HALTED (44_cycle.md R171). -/
theorem step_halt_keeps_set {s t : State} (h : step s = .next t) (hs : s.halt = true) : t.halt = true := by
  obtain ⟨-, ⟨-, rfl⟩ | ⟨hh, -⟩ | ⟨hh, -⟩⟩ := step_cases h
  · simpa using hs
  · simp [hs] at hh
  · simp [hs] at hh

/-- F.HALT is set by the guard or by HALT (44_cycle.md R173, 42_flow_control.md R126). -/
theorem step_sets_halt {s t : State} (h : step s = .next t) (hs : s.halt = false) (ht : t.halt = true) :
    ¬ s.windowFits ∨ ∃ rd ra o, s.acceptRequests.beginCycle.fetched = .halt rd ra o := by
  obtain ⟨-, ⟨hh, -⟩ | ⟨-, hb, -⟩ | ⟨-, hb, hlive⟩⟩ := step_cases h
  · simp [hs] at hh
  · refine .inl fun hfit => ?_
    have hclear : s.acceptRequests.beginCycle.halt = false :=
      (State.beginCycle_halt_eq_false_iff _).mpr
        ⟨by simpa using hs, s.acceptRequests_advancedPc ▸ hfit⟩
    simp [hclear] at hb
  · obtain ⟨-, rfl⟩ | ⟨-, -, rfl⟩ | ⟨-, -, hexec⟩ := hlive
    · simp [hb] at ht
    · simp [hb] at ht
    · rcases exec_halt_eq_or_halt hexec with heq | hi
      · simp [heq, hb] at ht
      · exact .inr hi

/-- In HALTED no cycle runs (10_state.md R36). -/
theorem step_of_halted {s : State} (h : s.runState = .halted) : step s = .fault .halted := by
  simp [step, runLoop, h]

/-- In MEMFAULT no cycle runs (10_state.md R36). -/
theorem step_of_memFault {s : State} (h : s.runState = .memFault) : step s = .fault .memFault := by
  simp [step, runLoop, h]

/-! ### The statements -/

/-- Settles O51: the requests clear nothing, a cycle that runs no instruction keeps P, and of the instructions only
PNDW clears a bit. -/
theorem pendingClearedOnlyByPndw : Obligations.PendingClearedOnlyByPndw := by
  unfold Obligations.PendingClearedOnlyByPndw
  intro s t k h hs ht
  have hreq := s.acceptRequests_pending_keeps_set hs
  rcases step_keepsControl_or_executes h with hkeep | hexec
  · simp [hkeep.pending, hreq] at ht
  · rcases exec_pending_keeps_set_or_pndw hexec (by simpa using hreq) with hset | ⟨rd, ra, o, hi, hra⟩
    · simp [hset] at ht
    · exact ⟨rd, ra, o, hi, by simpa using hra⟩

/-- Settles O52, one lemma for each bit. -/
theorem controlBitsHaveFewWriters : Obligations.ControlBitsHaveFewWriters := by
  unfold Obligations.ControlBitsHaveFewWriters
  intro s t h
  refine ⟨(step_mask_eq_or_mskw h).resolve_left, (step_carry_eq_or_adc_or_sbc h).resolve_left, ?_, ?_,
    step_sets_halt h, step_halt_keeps_set h, step_params h⟩
  · intro hs ht
    rcases step_wfi_cases h with heq | ⟨hclear, -⟩ | ⟨-, hi⟩
    · simp [heq, hs] at ht
    · simp [hclear] at ht
    · exact hi
  · intro hs ht
    rcases step_wfi_cases h with heq | ⟨-, hdispatch⟩ | ⟨hclear, -⟩
    · simp [heq, hs] at ht
    · exact hdispatch
    · simp [hclear] at hs

/-- Settles O53: the single-shot clear passes a sticky F.STORE_REG over, and nothing after it clears the flag. -/
theorem stickyStoreRegIsNeverCleared : Obligations.StickyStoreRegIsNeverCleared := by
  unfold Obligations.StickyStoreRegIsNeverCleared
  intro s t hsticky hs h
  have hbegin : s.acceptRequests.beginCycle.storeReg = true := by
    rw [State.beginCycle_storeReg_of_sticky _ (by simpa using hsticky)]
    simpa using hs
  obtain ⟨-, ⟨-, rfl⟩ | ⟨-, -, rfl⟩ | ⟨-, -, ⟨-, rfl⟩ | ⟨-, -, rfl⟩ | ⟨-, -, hexec⟩⟩⟩ := step_cases h
  · simpa using hs
  · exact hbegin
  · simpa using hbegin
  · simpa using hbegin
  · exact exec_storeReg_keeps_set hexec (by simpa using hbegin)

/-- Settles O54: a stop keeps PC, a taken branch is the first cause, and every other instruction ends in a writeback
after keeping PC. -/
theorem pcWrittenOnlyByBranchOrWriteback : Obligations.PcWrittenOnlyByBranchOrWriteback := by
  unfold Obligations.PcWrittenOnlyByBranchOrWriteback
  intro i s t h hpc
  cases shape_of_exec h with
  | stop a n ha hn => simp [decoded] at hpc
  | jump v hop hra => exact ⟨by simp, .inl ⟨hop, hra⟩⟩
  | _ =>
    obtain ⟨hhalt, hrd, hstore⟩ :=
      State.writeback_changes_pc (fun heq => hpc (heq.trans (by simp [decoded])))
    exact ⟨hhalt, .inr ⟨hrd, hstore⟩⟩

/-- Settles O8, from what the read port gives at R0. -/
theorem discardRegisterReadsZero : Obligations.DiscardRegisterReadsZero := by
  unfold Obligations.DiscardRegisterReadsZero
  exact ⟨State.readReg_r0 _, fun s v => ⟨s.readReg_r0, rfl⟩⟩

/-- Settles O9, from the two laws of the write port. -/
theorem registerWritePort : Obligations.RegisterWritePort := by
  unfold Obligations.RegisterWritePort
  exact fun s i r v => ⟨s.writePort_readReg i v r, s.writePort_pcHalt i v⟩

/-- Settles O40. -/
theorem terminalRunStatesRunNoCycle : Obligations.TerminalRunStatesRunNoCycle := by
  unfold Obligations.TerminalRunStatesRunNoCycle
  refine fun s => ⟨fun h t => ?_, fun h t => ?_, step_of_halted, step_of_memFault⟩
  · simp [step_of_halted h]
  · simp [step_of_memFault h]

/-- Settles O56: memory lists no byte, F.PC_HALT is set, and the core is running. -/
theorem invariantHoldsAtReset : Obligations.InvariantHoldsAtReset := by
  unfold Obligations.InvariantHoldsAtReset
  exact {
    memory   := ⟨List.Pairwise.nil, by simp [State.reset, State.resetWith]⟩
    pcWindow := fun _ _ hpc => by simp [State.reset, State.resetWith] at hpc
    halted   := fun hrun => by simp [State.reset, State.resetWith] at hrun
    memFault := fun hrun => by simp [State.reset, State.resetWith] at hrun }

/-- Settles O59: no byte is listed and every register but SP starts at 0; the rest are the values of
`State.resetWith`. -/
theorem resetState : Obligations.ResetState := by
  unfold Obligations.ResetState
  intro p
  have hregs : ∀ r, r ≠ .sp → (State.resetWith p).readReg r = 0 := by
    intro r hr
    cases r with
    | sp => exact absurd rfl hr
    | _ => rfl
  exact ⟨fun _ => rfl, hregs, rfl, rfl, rfl, rfl, rfl, rfl, rfl, rfl, rfl, rfl, rfl, rfl⟩

end Sys2Proof.Machine
end

section
/-!
PROOFS. The statements about memory (20_memory.md): the value of an access and its bytes (R58), what a store leaves
(R60, R65), the accesses that stop the run (R55), and the invariant between cycles.

The plan: `readSum` is a sum over the bytes of an access, so a value read is settled by what each of those bytes is,
and what a store does to a byte is said once for the bytes of the access and once for every other. The stop and the
invariant are read off `ExecShape` and `step_cases`.
-/

namespace Sys2Proof.Machine

open Sys2Proof

/-! ### The value and the bytes of an access (R58) -/

/-- In big-endian order the sum of `assemble` runs over the same bytes from the other end. -/
theorem State.memValue_eq_readSum (s : State) (a : Word) (n : Nat) : s.memValue a n = s.readSum a n := by
  have hbyte : ∀ k < n, (Memory.readFrom s.mem a.toNat 0 n).getD k 0 = s.byteAt a k := by
    intro k hk
    rw [Memory.getD_readFrom _ _ _ _ _ hk, Nat.zero_add, State.byteAt]
  unfold State.memValue State.readSum valueOfBytes
  cases s.params.byteOrder with
  | little =>
    simp only [orderBytes, assemble_eq_sum, Memory.length_readFrom]
    exact Finset.sum_congr rfl fun k hk => by rw [hbyte k (Finset.mem_range.mp hk)]
  | big =>
    simp only [orderBytes, assemble_eq_sum, List.length_reverse, Memory.length_readFrom]
    rw [← Finset.sum_range_reflect]
    refine Finset.sum_congr rfl fun k hk => ?_
    have hk : k < n := Finset.mem_range.mp hk
    rw [List.getD_reverse _ (by rw [Memory.length_readFrom]; omega), Memory.length_readFrom,
      show n - 1 - (n - 1 - k) = k by omega, hbyte k hk]

/-- A value read depends only on the bytes of the access and on the byte order. -/
theorem State.memValue_congr {s t : State} {a : Word} {n : Nat} (hp : t.params = s.params)
    (hb : ∀ k < n, t.byteAt a k = s.byteAt a k) : t.memValue a n = s.memValue a n := by
  simp only [State.memValue_eq_readSum, State.readSum, hp]
  split
  all_goals
    refine Finset.sum_congr rfl fun k hk => ?_
    rw [hb k (Finset.mem_range.mp hk)]

/-- The bytes a store writes, in address order, are those of R58. -/
theorem getElem_bytesOfValue (p : Config.Params) (n : Nat) (v : Word) (k : Nat)
    (hk : k < (bytesOfValue p.byteOrder n v.toNat).length) :
    (bytesOfValue p.byteOrder n v.toNat)[k] = storedByte p n v k := by
  unfold storedByte
  revert hk
  cases p.byteOrder with
  | little => simp [bytesOfValue, orderBytes, getElem_splitBytes, ofNat_div_eq_extractLsb']
  | big => simp [bytesOfValue, orderBytes, getElem_splitBytes, ofNat_div_eq_extractLsb']

/-- Byte j of an access k bytes further is byte k + j, as long as the address itself does not wrap at 2^32. -/
theorem State.byteAt_add (s : State) (a d : Word) (j : Nat) (h : a.toNat + d.toNat < 2 ^ 32) :
    s.byteAt (a + d) j = s.byteAt a (d.toNat + j) := by
  rw [State.byteAt, State.byteAt, BitVec.toNat_add_of_lt h, byteAddr, byteAddr, Nat.add_assoc]

/-! ### What a store leaves (R58, R60) -/

theorem State.memStore_byteAt (s : State) (a : Word) (v : Word) {n k : Nat} (hn : n ≤ Config.memSize) (hk : k < n) :
    (s.memStore a n v).byteAt a k = storedByte s.params n v k := by
  have hlen := length_bytesOfValue s.params.byteOrder n v.toNat
  have hinside := Memory.readByte_writeFrom_inside s.mem a.toNat 0 (bytesOfValue s.params.byteOrder n v.toNat) k
    (by omega) (by omega)
  rw [Nat.zero_add] at hinside
  exact hinside.trans (getElem_bytesOfValue s.params n v k _)

theorem State.memStore_keepsMemOutside (s : State) (a : Word) (n : Nat) (v : Word) :
    KeepsMemOutside a n s (s.memStore a n v) := by
  intro c hc
  refine Memory.readByte_writeFrom_outside _ _ _ _ _ fun k hk => ?_
  rw [Nat.zero_add]
  exact hc k (by simpa using hk)

/-- A read of the bytes just written. -/
theorem State.memStore_memValue (s : State) (a : Word) (v : Word) {n : Nat} (hn : n ≤ Config.memSize) :
    (s.memStore a n v).memValue a n = v.toNat % 2 ^ (8 * n) := by
  have hlen := length_bytesOfValue s.params.byteOrder n v.toNat
  have hread := Memory.readFrom_writeFrom s.mem a.toNat 0 (bytesOfValue s.params.byteOrder n v.toNat) (by omega)
  rw [hlen] at hread
  rw [State.memValue, State.memStore_mem, State.memStore_params, hread, valueOfBytes_bytesOfValue, Nat.pow_mul]

/-- A read in range of bytes below the ones written. -/
theorem State.memStore_memValue_below (s : State) (a b v : Word) (m n : Nat) (hm : b.toNat + m ≤ a.toNat)
    (hn : a.toNat + n ≤ Config.memSize) : (s.memStore a n v).memValue b m = s.memValue b m := by
  refine State.memValue_congr rfl fun k hk => s.memStore_keepsMemOutside a n v _ fun j hj => ?_
  rw [byteAddr_of_lt _ _ (by omega), byteAddr_of_lt _ _ (by omega)]
  omega

/-- A store does not move the fetch address. -/
@[simp] theorem State.memStore_advancedPc (s : State) (a : Word) (n : Nat) (v : Word) :
    (s.memStore a n v).advancedPc = s.advancedPc := rfl

/-! ### The accesses that stop the run (R55) -/

theorem State.accessAllowed_eq_false_iff (s : State) (a : Word) (n : Nat) :
    s.accessAllowed a n = false ↔ Config.memSize < a.toNat + n ∧ s.params.oobPolicy = .stop := by
  cases h : s.params.oobPolicy <;> simp [State.accessAllowed, h]

theorem State.loadResult_stops (s : State) (n : Nat) (rd ra : Reg) (o : Operand2)
    (h : s.accessAllowed (s.operand1 ra) n = false) :
    s.loadResult n rd ra o = (s.afterDecode o).stopMemFault := by
  simp [State.loadResult, h]

theorem State.storeValue_stops (s : State) (n : Nat) (rd ra : Reg) (o : Operand2)
    (h : s.accessAllowed (s.operand1 ra) n = false) :
    s.storeValue n rd ra o = (s.afterDecode o).stopMemFault := by
  simp [State.storeValue, h]

theorem execPush_stops (s : State) (rd ra : Reg) (o : Operand2) (h : s.accessAllowed s.sp 4 = false) :
    execPush rd ra o s = .next (s.afterDecode o).stopMemFault := by
  simp [execPush, h]

theorem execPop_stops (s : State) (rd ra : Reg) (o : Operand2) (h : s.accessAllowed s.sp 4 = false) :
    execPop rd ra o s = .next (s.afterDecode o).stopMemFault := by
  simp [execPop, h]

/-- An access that the bounds rule does not allow leaves the decoder's effects and the stop, and nothing else. -/
theorem exec_stops {i : Instr} {s : State} {a : Word} {n : Nat} (ha : dataAccess s i = some (a, n))
    (h : s.accessAllowed a n = false) : exec i s = .next (decoded i s).stopMemFault := by
  cases i with
  | ldb rd ra o => cases ha; exact congrArg _ (s.loadResult_stops 1 rd ra o h)
  | ldh rd ra o => cases ha; exact congrArg _ (s.loadResult_stops 2 rd ra o h)
  | ldw rd ra o => cases ha; exact congrArg _ (s.loadResult_stops 4 rd ra o h)
  | stb rd ra o => cases ha; exact congrArg _ (s.storeValue_stops 1 rd ra o h)
  | sth rd ra o => cases ha; exact congrArg _ (s.storeValue_stops 2 rd ra o h)
  | stw rd ra o => cases ha; exact congrArg _ (s.storeValue_stops 4 rd ra o h)
  | push rd ra o => cases ha; exact execPush_stops s rd ra o h
  | pop rd ra o => cases ha; exact execPop_stops s rd ra o h
  | _ => cases ha

/-- An instruction keeps the run state, or it stops at an access that the bounds rule does not allow. -/
theorem exec_runState_eq_or_stops {i : Instr} {s t : State} (h : exec i s = .next t) :
    t.runState = s.runState ∨
      (t.runState = .memFault ∧ ∃ a n, dataAccess s i = some (a, n) ∧ s.accessAllowed a n = false) := by
  cases shape_of_exec h with
  | stop a n ha hn => exact .inr ⟨rfl, a, n, ha, hn⟩
  | _ => left; simp [decoded]

/-! ### The invariant (20_memory.md R50, R55; 44_cycle.md R171 to R173) -/

/-- Memory stays canonical: only a store and PUSH write it. -/
theorem exec_mem_wf {i : Instr} {s t : State} (h : exec i s = .next t) (hs : Memory.wf s.mem) :
    Memory.wf t.mem := by
  have hd : Memory.wf (decoded i s).mem := by simpa [decoded] using hs
  cases shape_of_exec h with
  | store a n v => simpa using State.memStore_wf (decoded i s) a n v hd
  | push v => simpa using State.memStore_wf (decoded i s) s.sp 4 v hd
  | _ => simpa using hd

/-- With canonical memory, only a PC that will be advanced is left to ask about in a running core. -/
theorem State.inv_of_running {s : State} (hmem : Memory.wf s.mem) (hrun : s.runState = .running)
    (hpc : s.halt = false → s.pcHalt = false → s.pc.toNat ≤ 0xFFFC) : s.Inv where
  memory   := hmem
  pcWindow := fun _ => hpc
  halted   := fun h => by simp [hrun] at h
  memFault := fun h => by simp [hrun] at h

/-- A stop under OOB_POLICY = stop keeps the invariant, whatever PC is. -/
theorem State.inv_of_memFault {s : State} (hmem : Memory.wf s.mem) (hrun : s.runState = .memFault)
    (hpolicy : s.params.oobPolicy = .stop) : s.Inv where
  memory   := hmem
  pcWindow := fun h => by simp [hrun] at h
  halted   := fun h => by simp [hrun] at h
  memFault := fun _ => hpolicy

/-- The guard gives the invariant anew: where it leaves F.HALT clear, the window at the advanced PC is in memory. -/
theorem State.beginCycle_inv {s : State} (hmem : Memory.wf s.mem) (hrun : s.runState = .running) :
    s.beginCycle.Inv := by
  obtain ⟨hpc, -, -, -, hm, -, -, -, -, -, hr⟩ := s.beginCycle_fields
  refine State.inv_of_running (hm ▸ hmem) (hr.trans hrun) fun hhalt _ => ?_
  obtain ⟨-, hfits⟩ := s.beginCycle_halt_eq_false_iff.mp hhalt
  rw [hpc]
  omega

/-- The push of a dispatch is a store or a stop, and a dispatched PC is not advanced (60_exceptions.md R196). -/
theorem State.dispatch_inv {s : State} (hs : s.Inv) (hrun : s.runState = .running) : s.dispatch.Inv := by
  cases hok : s.accessAllowed s.sp 4 with
  | true =>
    rw [s.dispatch_allowed hok]
    exact State.inv_of_running (s.memStore_wf s.sp 4 s.pc hs.memory) hrun fun _ hpc => by simp at hpc
  | false =>
    rw [s.dispatch_stops hok]
    exact State.inv_of_memFault hs.memory rfl ((s.accessAllowed_eq_false_iff _ _).mp hok).2

/-- A parked core keeps its PC, and at most sets F.PC_HALT (R178). -/
theorem State.park_inv {s : State} (hs : s.Inv) (hrun : s.runState = .running) : s.park.Inv := by
  refine State.inv_of_running (by simpa using hs.memory) (by simpa using hrun) fun hhalt hpc => ?_
  rw [State.park_halt] at hhalt
  rw [State.park_pc]
  refine hs.pcWindow hrun hhalt ?_
  unfold State.park at hpc
  split at hpc
  · exact hpc
  · simp at hpc

/-- An instruction that writes PC sets F.PC_HALT, so a PC that will be advanced is the one it was fetched at. -/
theorem exec_inv {i : Instr} {s t : State} (h : exec i s = .next t) (hs : s.Inv) (hlive : s.live)
    (hpc : s.pcHalt = false) : t.Inv := by
  obtain ⟨hrun, hhalt⟩ := hlive
  rcases exec_runState_eq_or_stops h with heq | ⟨hstop, a, n, -, hbad⟩
  · refine State.inv_of_running (exec_mem_wf h hs.memory) (heq.trans hrun) fun _ hclear => ?_
    have hkeep : t.pc = s.pc := by
      by_contra hne
      have hset := (pcWrittenOnlyByBranchOrWriteback i s t h hne).1
      simp [hclear] at hset
    rw [hkeep]
    exact hs.pcWindow hrun hhalt hpc
  · refine State.inv_of_memFault (exec_mem_wf h hs.memory) hstop ?_
    rw [exec_params h]
    exact ((s.accessAllowed_eq_false_iff a n).mp hbad).2

/-- The note for the host is outside the invariant (70_reset_and_hazards.md R226). -/
theorem State.noteDecoded_inv {s : State} (hs : s.Inv) (i : Instr) : (s.noteDecoded i).Inv :=
  ⟨hs.memory, hs.pcWindow, hs.halted, hs.memFault⟩

/-! ### The statements -/

/-- Settles O57: the beginning of a cycle gives the invariant anew, and each of the three things a cycle can go on
with keeps it. -/
theorem stepKeepsTheInvariant : Obligations.StepKeepsTheInvariant := by
  unfold Obligations.StepKeepsTheInvariant
  intro s t hs h
  obtain ⟨hrun, hcases⟩ := step_cases h
  have hbegin : s.acceptRequests.beginCycle.Inv :=
    State.beginCycle_inv (by simpa using hs.memory) (by simpa using hrun)
  obtain ⟨-, hpc, -, -, -, -, -, -, -, -, hkeep⟩ := s.acceptRequests.beginCycle_fields
  have hrun' : s.acceptRequests.beginCycle.runState = .running :=
    hkeep.trans (s.acceptRequests_runState.trans hrun)
  obtain ⟨hhalt, rfl⟩ | ⟨-, -, rfl⟩ | ⟨-, hlive, ⟨-, rfl⟩ | ⟨-, -, rfl⟩ | ⟨-, -, hexec⟩⟩ := hcases
  · exact {
      memory   := by simpa using hs.memory
      pcWindow := fun h => by simp at h
      halted   := fun _ => by simpa using hhalt
      memFault := fun h => by simp at h }
  · exact hbegin
  · exact State.dispatch_inv hbegin hrun'
  · exact State.park_inv hbegin hrun'
  · exact exec_inv hexec (State.noteDecoded_inv hbegin _) ⟨hrun', hlive⟩ hpc

/-- Settles O10. -/
theorem readValueByByteOrder : Obligations.ReadValueByByteOrder := by
  unfold Obligations.ReadValueByByteOrder
  exact State.memValue_eq_readSum

/-- Settles O11, from the two rules of a store. -/
theorem storedBytesByByteOrder : Obligations.StoredBytesByByteOrder := by
  unfold Obligations.StoredBytesByByteOrder
  intro s a n v hn
  have hsize : n ≤ Config.memSize := hn.trans (by decide)
  exact ⟨fun k hk => s.memStore_byteAt a v hsize hk, s.memStore_keepsMemOutside a n v⟩

/-- Settles O12. -/
theorem storeThenReadGivesValue : Obligations.StoreThenReadGivesValue := by
  unfold Obligations.StoreThenReadGivesValue
  exact fun s a n v hn => s.memStore_memValue a v (hn.trans (by decide))

/-- Settles O13: both reads are sums over bytes of the stored word. -/
theorem littleEndianMixedWidths : Obligations.LittleEndianMixedWidths := by
  unfold Obligations.LittleEndianMixedWidths
  intro s a v hlittle ha
  have hbyte : ∀ k < 4, (s.memStore a 4 v).byteAt a k = v.extractLsb' (8 * k) 8 := by
    intro k hk
    rw [s.memStore_byteAt a v (by decide) hk, storedByte, hlittle]
  have hupper : ∀ j < 2, (s.memStore a 4 v).byteAt (a + 2) j = v.extractLsb' (8 * (2 + j)) 8 := by
    intro j hj
    have hno : a.toNat + (2 : Word).toNat < 2 ^ 32 := by simp; omega
    rw [State.byteAt_add _ _ _ _ hno]
    exact hbyte (2 + j) (by omega)
  constructor
  · simp [State.memValue_eq_readSum, State.readSum, hlittle, hbyte]
  · simp only [State.memValue_eq_readSum, State.readSum, State.memStore_params, hlittle, Finset.sum_range_succ,
      Finset.sum_range_zero, hupper 0 (by decide), hupper 1 (by decide)]
    simp only [BitVec.extractLsb'_toNat, Nat.shiftRight_eq_div_pow]
    omega

/-- Settles O14: the window is in memory, so its two halfwords are apart. -/
theorem fetchSeesEarlierStores : Obligations.FetchSeesEarlierStores := by
  unfold Obligations.FetchSeesEarlierStores
  intro s v hfits
  have hnext : (s.advancedPc + 2).toNat = s.advancedPc.toNat + 2 := by
    simp only [State.windowFits, Config.memSize] at hfits
    bv_omega
  have hhalf : BitVec.ofNat 16 (v.toNat % 2 ^ (8 * 2)) = v.setWidth 16 := by
    apply BitVec.eq_of_toNat_eq
    simp
  simp only [State.beginCycle_fetchHi, State.beginCycle_fetchLo, State.acceptRequests_advancedPc,
    State.memStore_advancedPc]
  refine ⟨?_, ?_, ?_⟩
  · rw [State.memStore_memValue _ _ _ (by decide), hhalf]
  · rw [State.memStore_memValue _ _ _ (by decide), hhalf]
  · rw [State.memStore_memValue_below _ _ _ _ _ _ (by omega) (by omega)]

/-- Settles O19: what the stop leaves is what the decoder left, but for the run state. -/
theorem outOfRangeAccessStopsTheRun : Obligations.OutOfRangeAccessStopsTheRun := by
  unfold Obligations.OutOfRangeAccessStopsTheRun
  intro i s a n ha hpolicy hrange
  have hbad : s.accessAllowed a n = false := (s.accessAllowed_eq_false_iff a n).mpr ⟨hrange, hpolicy⟩
  refine ⟨_, exec_stops ha hbad, rfl, ?_⟩
  have hflow : KeepsFlow (instrOperand2 i) s (decoded i s).stopMemFault := by
    constructor <;> simp [decoded, decodedPending]
  simpa [decoded] using hflow

/-- Settles O20: every instruction completes, and a stop would be at an access that the hypothesis allows. -/
theorem onlyOutOfRangeAccessStops : Obligations.OnlyOutOfRangeAccessStops := by
  unfold Obligations.OnlyOutOfRangeAccessStops
  intro i s hok
  obtain ⟨t, ht, -⟩ := exec_shape i s
  refine ⟨t, ht, (exec_runState_eq_or_stops ht).resolve_right ?_⟩
  rintro ⟨-, a, n, ha, hbad⟩
  obtain ⟨hrange, hpolicy⟩ := (s.accessAllowed_eq_false_iff a n).mp hbad
  rcases hok a n ha with hwrap | hin
  · simp [hpolicy] at hwrap
  · exact absurd hrange (Nat.not_lt.mpr hin)

end Sys2Proof.Machine
end

section
/-!
PROOFS. The statements about the encoding (30_encoding.md): the two round trips (R70 to R74, R85), the fields of a
window (R72, R84), operand 2 by mode (R77 to R80), and what the decoder leaves whatever the opcode (R70, R86).

The plan: operand 2 is the only part whose reading depends on the mode, so each round trip is one lemma about
operand 2 put together with the laws of packing and of the opcode map. What the decoder leaves is F.PC_DOUBLE,
read off `ExecShape`, and P, where the valid and the invalid opcodes part.
-/

namespace Sys2Proof

/-! ### Operand 2 and its fields (R72, R77 to R80) -/

@[simp] theorem decodeOperand2_reg (rb : BitVec 3) (lo : Halfword) :
    decodeOperand2 0#2 rb lo = .reg (regOfBits rb) := rfl

@[simp] theorem decodeOperand2_short (rb : BitVec 3) (lo : Halfword) :
    decodeOperand2 1#2 rb lo = .short rb.toInt := rfl

@[simp] theorem decodeOperand2_long (rb : BitVec 3) (lo : Halfword) :
    decodeOperand2 2#2 rb lo = .long rb lo.toInt := rfl

@[simp] theorem decodeOperand2_invalid (rb : BitVec 3) (lo : Halfword) :
    decodeOperand2 3#2 rb lo = .invalid rb := rfl

theorem mode_cases : ∀ mode : BitVec 2, mode = 0#2 ∨ mode = 1#2 ∨ mode = 2#2 ∨ mode = 3#2 := by decide

theorem modeBits_eq_two_iff (o : Operand2) : modeBits o = 2#2 ↔ o.isLong = true := by
  cases o <;> simp [modeBits, Operand2.isLong]

/-- A well-formed operand 2 is read back from its fields; the second halfword counts in mode 10 only (R73). -/
theorem decodeOperand2_modeBits_rbBits {o : Operand2} {lo : Halfword} (hwf : o.wellFormed = true)
    (hlo : o.isLong = true → immWords o = [lo]) : decodeOperand2 (modeBits o) (rbBits o) lo = o := by
  cases o with
  | reg rb => simp [modeBits, rbBits]
  | short n =>
    simp only [Operand2.wellFormed, Bool.and_eq_true, decide_eq_true_eq] at hwf
    simp only [modeBits, rbBits, decodeOperand2_short]
    rw [BitVec.toInt_ofInt_eq_self (by decide) (by omega) (by omega)]
  | long rb n =>
    simp only [Operand2.wellFormed, Bool.and_eq_true, decide_eq_true_eq] at hwf
    obtain rfl : BitVec.ofInt 16 n = lo := by simpa [immWords] using hlo rfl
    simp only [modeBits, rbBits, decodeOperand2_long]
    rw [BitVec.toInt_ofInt_eq_self (by decide) (by omega) (by omega)]
  | invalid rb => simp [modeBits, rbBits]

/-- The immediate of a decoded operand 2 fits its field. -/
theorem wellFormed_decodeOperand2 (mode : BitVec 2) (rb : BitVec 3) (lo : Halfword) :
    (decodeOperand2 mode rb lo).wellFormed = true := by
  obtain rfl | rfl | rfl | rfl := mode_cases mode
  · rfl
  · have hlow : -4 ≤ rb.toInt := rb.le_toInt
    have hhigh : rb.toInt ≤ 3 := Int.le_of_lt_add_one rb.toInt_lt
    simp [Operand2.wellFormed, hlow, hhigh]
  · have hlow : -32768 ≤ lo.toInt := lo.le_toInt
    have hhigh : lo.toInt ≤ 32767 := Int.le_of_lt_add_one lo.toInt_lt
    simp [Operand2.wellFormed, hlow, hhigh]
  · rfl

@[simp] theorem modeBits_decodeOperand2 (mode : BitVec 2) (rb : BitVec 3) (lo : Halfword) :
    modeBits (decodeOperand2 mode rb lo) = mode := by
  obtain rfl | rfl | rfl | rfl := mode_cases mode <;> rfl

@[simp] theorem rbBits_decodeOperand2 (mode : BitVec 2) (rb : BitVec 3) (lo : Halfword) :
    rbBits (decodeOperand2 mode rb lo) = rb := by
  obtain rfl | rfl | rfl | rfl := mode_cases mode <;> simp [rbBits]

@[simp] theorem immWords_decodeOperand2 (mode : BitVec 2) (rb : BitVec 3) (lo : Halfword) :
    immWords (decodeOperand2 mode rb lo) = if mode = 2#2 then [lo] else [] := by
  obtain rfl | rfl | rfl | rfl := mode_cases mode <;> simp [immWords]

theorem immWords_of_not_isLong {o : Operand2} (h : ¬ o.isLong = true) : immWords o = [] := by
  cases o with
  | long rb n => exact absurd rfl h
  | _ => rfl

theorem immWords_of_isLong {o : Operand2} (h : o.isLong = true) : ∃ lo, immWords o = [lo] := by
  cases o with
  | long rb n => exact ⟨_, rfl⟩
  | _ => simp [Operand2.isLong] at h

/-! ### Windows (R72, R84, R85) -/

@[simp] theorem instrFields_decodeWindow (hi lo : Halfword) :
    instrFields (decodeWindow hi lo) =
      ⟨opField hi, regOfBits (rdField hi), regOfBits (raField hi),
        decodeOperand2 (modeField hi) (rbField hi) lo⟩ :=
  instrFields_instrOfFields _ _ _ _

@[simp] theorem modeField_firstHalfword (f : Fields) : modeField (firstHalfword f) = modeBits f.o :=
  modeField_packFields _ _ _ _ _

/-- A well-formed instruction is what its own window decodes to. -/
theorem decodeWindow_firstHalfword {i : Instr} {lo : Halfword} (hwf : i.wellFormed = true)
    (hlo : (instrFields i).o.isLong = true → immWords (instrFields i).o = [lo]) :
    decodeWindow (firstHalfword (instrFields i)) lo = i := by
  rw [wellFormed_iff_operand2] at hwf
  simp [decodeWindow, firstHalfword, decodeOperand2_modeBits_rbBits hwf hlo]

/-- A window's first halfword is that of the instruction it decodes to. -/
theorem firstHalfword_decodeWindow (hi lo : Halfword) :
    firstHalfword (instrFields (decodeWindow hi lo)) = hi := by
  simp [firstHalfword, packFields_fields]

/-- A field by division is the field by bits. -/
theorem extractLsb'_eq_ofNat_div {w : Nat} (x : BitVec w) (start len : Nat) :
    x.extractLsb' start len = BitVec.ofNat len (x.toNat / 2 ^ start) := by
  rw [BitVec.extractLsb', Nat.shiftRight_eq_div_pow]

/-! ### The decoder on the bytes of halfwords (R70, R71) -/

/-- In the modes other than 10 the decoder takes one halfword. -/
theorem decode_bytesOfValue_short (order : Config.ByteOrder) {hi : Halfword} (rest : List Byte)
    (hmode : modeField hi ≠ 2#2) :
    decode order (bytesOfValue order 2 hi.toNat ++ rest) = .ok (decodeWindow hi 0#16) rest := by
  obtain ⟨b0, b1, hbytes, hhalf⟩ := bytesOfValue_halfword order hi
  simp [hbytes, decode, hhalf, hmode]

/-- In mode 10 the decoder takes two halfwords. -/
theorem decode_bytesOfValue_long (order : Config.ByteOrder) {hi : Halfword} (lo : Halfword) (rest : List Byte)
    (hmode : modeField hi = 2#2) :
    decode order (bytesOfValue order 2 hi.toNat ++ (bytesOfValue order 2 lo.toNat ++ rest)) =
      .ok (decodeWindow hi lo) rest := by
  obtain ⟨b0, b1, hbytes, hhalf⟩ := bytesOfValue_halfword order hi
  obtain ⟨b2, b3, hbytes', hhalf'⟩ := bytesOfValue_halfword order lo
  simp [hbytes, hbytes', decode, hhalf, hhalf', hmode]

/-! ### Sign extension (R78, R79) -/

/-- The sign extension of a field: ones above it when its top bit is set, zeros otherwise. -/
theorem ofInt_toInt_eq_or_setWidth {n : Nat} (x : BitVec n) :
    BitVec.ofInt 32 x.toInt =
      if x.getLsbD (n - 1) then (BitVec.allOnes 32 <<< n) ||| x.setWidth 32 else x.setWidth 32 := by
  have hmsb : x.getLsbD (n - 1) = x.msb := (BitVec.msb_eq_getLsbD_last x).symm
  change x.signExtend 32 = _
  rw [hmsb]
  cases hx : x.msb with
  | false => simpa using BitVec.signExtend_eq_setWidth_of_msb_false hx
  | true =>
    apply BitVec.eq_of_getLsbD_eq
    intro k hk
    rw [if_pos rfl, BitVec.getLsbD_signExtend, BitVec.getLsbD_or, BitVec.getLsbD_shiftLeft,
      BitVec.getLsbD_setWidth, BitVec.getLsbD_allOnes, hx]
    by_cases hkn : k < n
    · simp [hk, hkn]
    · have hones : k - n < 32 := by omega
      simp [hk, hkn, hones]

/-! ### The statements about windows and bytes -/

/-- Settles O1: the mode says whether the decoder takes one halfword or two, and what it takes is the instruction's
own window. -/
theorem decodeEncodeRoundTrip : Obligations.DecodeEncodeRoundTrip := by
  unfold Obligations.DecodeEncodeRoundTrip
  intro order i rest hwf
  have hmode : modeField (firstHalfword (instrFields i)) = 2#2 ↔ (instrFields i).o.isLong = true := by
    rw [modeField_firstHalfword, modeBits_eq_two_iff]
  by_cases hlong : (instrFields i).o.isLong = true
  · obtain ⟨lo, himm⟩ := immWords_of_isLong hlong
    have hbytes : encodeBytes order i =
        bytesOfValue order 2 (firstHalfword (instrFields i)).toNat ++ bytesOfValue order 2 lo.toNat := by
      simp [encodeBytes, encode, himm]
    rw [hbytes, List.append_assoc, decode_bytesOfValue_long order lo rest (hmode.mpr hlong),
      decodeWindow_firstHalfword hwf fun _ => himm]
  · have himm := immWords_of_not_isLong hlong
    have hbytes : encodeBytes order i = bytesOfValue order 2 (firstHalfword (instrFields i)).toNat := by
      simp [encodeBytes, encode, himm]
    rw [hbytes, decode_bytesOfValue_short order rest (mt hmode.mp hlong),
      decodeWindow_firstHalfword hwf fun h => absurd h hlong]

/-- Settles O2, one part of the encoding at a time. -/
theorem encodeOfDecodedWindow : Obligations.EncodeOfDecodedWindow := by
  unfold Obligations.EncodeOfDecodedWindow
  intro hi lo
  constructor
  · rw [wellFormed_iff_operand2, instrFields_decodeWindow]
    exact wellFormed_decodeOperand2 _ _ _
  · rw [encode, firstHalfword_decodeWindow, instrFields_decodeWindow, immWords_decodeOperand2]
    split <;> rfl

/-- Settles O3: the fields of a window are the fields of its instruction, and a halfword packs any fields. -/
theorem opcodeSelectedByTopBits : Obligations.OpcodeSelectedByTopBits := by
  unfold Obligations.OpcodeSelectedByTopBits
  refine ⟨fun hi lo => ?_, fun op rd ra rb mode lo => ?_⟩
  · simp [opField, rdField, raField, extractLsb'_eq_ofNat_div]
  · exact ⟨packFields op (bitsOfReg rd) (bitsOfReg ra) rb mode, by simp⟩

/-- Settles O4: the words are closed, so the decoder evaluates on them. -/
theorem specExampleWordsDecode : Obligations.SpecExampleWordsDecode := by
  unfold Obligations.SpecExampleWordsDecode
  decide

end Sys2Proof

namespace Sys2Proof.Machine

open Sys2Proof

/-- Settles O5: the three modes in turn; the immediates are the sign extension of their fields. -/
theorem operandTwoByMode : Obligations.OperandTwoByMode := by
  unfold Obligations.OperandTwoByMode
  intro s hi lo
  simp only [instrOperand2, instrFields_decodeWindow]
  refine ⟨fun hmode => ?_, fun hmode => ?_, fun hmode => ?_⟩
  · rw [hmode]
    exact ⟨rfl, rfl⟩
  · rw [hmode]
    exact ⟨ofInt_toInt_eq_or_setWidth (rbField hi), rfl⟩
  · rw [hmode]
    exact ⟨ofInt_toInt_eq_or_setWidth lo, rfl⟩

/-! ### What the decoder leaves in F.PC_DOUBLE and P, whatever the opcode (R79, R80, R86) -/

/-- An invalid opcode: 0x1A to 0x1F, or 0x0F with OP_0F_MODE = alu_fault (60_exceptions.md R190). -/
def invalidOpcode (p : Config.Params) (i : Instr) : Bool :=
  decide (26 ≤ (instrFields i).op.toNat) ||
    (decide ((instrFields i).op = 15#5) && decide (p.op0fMode = .aluFault))

/-- The causes of IFAULT are the mode and the opcode. -/
theorem raisesFault_eq (p : Config.Params) (i : Instr) :
    raisesFault p i = ((instrOperand2 i).isInvalid || invalidOpcode p i) :=
  Bool.or_assoc _ _ _

theorem exec_pcDouble {i : Instr} {s t : State} (h : exec i s = .next t) :
    t.pcDouble = (s.pcDouble || (instrOperand2 i).isLong) := by
  cases shape_of_exec h <;> simp [decoded]

theorem decoded_pending (i : Instr) (s : State) :
    (decoded i s).pending = if (instrOperand2 i).isInvalid then s.pending ||| 0x0001#16 else s.pending :=
  s.afterDecode_pending _

/-- An invalid opcode sets P[0] after the decoder, and does nothing but the writeback of 0 (R86). -/
theorem exec_of_invalidOpcode {i : Instr} {s : State} (h : invalidOpcode s.params i = true) :
    exec i s = .next ((decoded i s).raiseIfault.writeback (instrFields i).rd 0) := by
  cases i with
  | invalid0f rd ra o =>
    have hmode : s.params.op0fMode = .aluFault := by simpa [invalidOpcode, instrFields] using h
    simp [exec, execInvalid0f, hmode, State.aluInvalid, decoded, instrFields]
  | invalid1a rd ra o | invalid1b rd ra o | invalid1c rd ra o | invalid1d rd ra o | invalid1e rd ra o
  | invalid1f rd ra o => rfl
  | _ => simp [invalidOpcode, instrFields] at h

theorem State.loadResult_pending (s : State) (n : Nat) (rd ra : Reg) (o : Operand2) :
    (s.loadResult n rd ra o).pending = (s.afterDecode o).pending := by
  unfold State.loadResult
  dsimp only
  split <;> simp

theorem State.storeValue_pending (s : State) (n : Nat) (rd ra : Reg) (o : Operand2) :
    (s.storeValue n rd ra o).pending = (s.afterDecode o).pending := by
  unfold State.storeValue
  dsimp only
  split <;> simp

/-- A valid opcode keeps P as the decoder left it, but for the bit that PNDW writes (R124). -/
theorem exec_pending_of_validOpcode {i : Instr} {s : State} (h : invalidOpcode s.params i = false) :
    ∃ t, exec i s = .next t ∧ (t.pending = (decoded i s).pending ∨
      ∃ b, (instrFields i).op = 12#5 ∧
        t.pending = writeLine (decoded i s).pending (s.readReg (instrFields i).ra) b) := by
  cases i with
  | ldb rd ra o | ldh rd ra o | ldw rd ra o => exact ⟨_, rfl, .inl (s.loadResult_pending _ rd ra o)⟩
  | stb rd ra o | sth rd ra o | stw rd ra o => exact ⟨_, rfl, .inl (s.storeValue_pending _ rd ra o)⟩
  | push rd ra o | pop rd ra o | bnz rd ra o =>
    refine ⟨_, rfl, .inl ?_⟩
    split <;> simp [decoded, instrFields]
  | pndw rd ra o => exact ⟨_, rfl, .inr ⟨_, rfl, State.finishNoResult_pending _ _⟩⟩
  | invalid0f rd ra o =>
    refine ⟨_, rfl, .inl ?_⟩
    split
    · next hmode => simp [invalidOpcode, instrFields, hmode] at h
    · simp [decoded, instrFields]
  | invalid1a rd ra o | invalid1b rd ra o | invalid1c rd ra o | invalid1d rd ra o | invalid1e rd ra o
  | invalid1f rd ra o => simp [invalidOpcode, instrFields] at h
  | adc rd ra o | sbc rd ra o => exact ⟨_, rfl, .inl (by simp [State.aluSum, decoded, instrFields])⟩
  | cmp rd ra o | land rd ra o | lor rd ra o | lnot rd ra o | lsr rd ra o | lsl rd ra o | asr rd ra o
  | ror rd ra o => exact ⟨_, rfl, .inl (by simp [State.aluResult, decoded, instrFields])⟩
  | wfi rd ra o | mskw rd ra o | mskr rd ra o | pndr rd ra o | halt rd ra o =>
    exact ⟨_, rfl, .inl (by simp [decoded, instrFields])⟩

/-- P after an instruction, but for the bit that PNDW writes (R80, R86, R124). -/
theorem exec_pending_getLsbD {i : Instr} {s t : State} {k : Nat} (h : exec i s = .next t) (hk : k < 16)
    (hpndw : (instrFields i).op = 12#5 → (s.readReg (instrFields i).ra).toNat ≠ k) :
    t.pending.getLsbD k =
      (if raisesFault s.params i then s.pending ||| 0x0001#16 else s.pending).getLsbD k := by
  rw [raisesFault_eq]
  cases hi : invalidOpcode s.params i with
  | true =>
    rw [exec_of_invalidOpcode hi] at h
    cases h
    rw [State.writeback_pending, State.raiseIfault_pending, decoded_pending, Bool.or_true, if_pos rfl]
    split
    · rw [BitVec.or_assoc, BitVec.or_self]
    · rfl
  | false =>
    obtain ⟨u, hu, hpending⟩ := exec_pending_of_validOpcode hi
    obtain rfl : u = t := by simpa [hu] using h
    rw [Bool.or_false, ← decoded_pending]
    rcases hpending with heq | ⟨b, hop, heq⟩
    · rw [heq]
    · rw [heq, getLsbD_writeLine _ _ _ _ hk, if_neg (hpndw hop)]

/-- Settles O6: every instruction completes; F.PC_DOUBLE and P are as the two lemmas say. -/
theorem everyOpcodeDecodesItsMode : Obligations.EveryOpcodeDecodesItsMode := by
  unfold Obligations.EveryOpcodeDecodesItsMode
  intro i s
  obtain ⟨t, h, -⟩ := exec_shape i s
  exact ⟨t, h, exec_pcDouble h, fun k hk hpndw => exec_pending_getLsbD h hk hpndw⟩

/-- Settles O7: an instruction that leaves F.PC_HALT clear wrote no PC, so the advance starts at its own address, by
the length its mode has put in F.PC_DOUBLE. -/
theorem nextFetchIsPastTheInstruction : Obligations.NextFetchIsPastTheInstruction := by
  unfold Obligations.NextFetchIsPastTheInstruction
  intro i s t _ hdouble h _ hclear
  have hpc : t.pc = s.pc := by
    by_contra hne
    have hset := (pcWrittenOnlyByBranchOrWriteback i s t h hne).1
    simp [hclear] at hset
  have hlong : t.pcDouble = (instrOperand2 i).isLong := by simp [exec_pcDouble h, hdouble]
  simp [State.advancedPc, hclear, hpc, hlong]

end Sys2Proof.Machine
end

section
/-!
PROOFS. The statements about the memory unit (41_memory_unit.md): the loads (R101 to R103), the stores (R104 to
R106), PUSH and POP (R107, R108), and PUSH followed by POP (70_reset_and_hazards.md R233).

The plan: what the decoder and the unit leave before the end of an instruction is one predicate, `UnitEffect`, kept
by a store and by an SP update; the two ends of an instruction (44_cycle.md R181, R182) turn it into `ResultEffect`
and `NoResultEffect`. The bytes of a store are those of the rules about `memStore`.
-/

namespace Sys2Proof.Machine

open Sys2Proof

/-! ### Before the end of an instruction (44_cycle.md R180, R183) -/

/-- What the decoder and the unit have done to s when they leave u to the end of the instruction: the registers are
as `base` gives them, and the rest is the decoder's but for a jump. C and the flow-control state are not in it, as
some units write them. -/
structure UnitEffect (o : Operand2) (jumped : Bool) (base : Reg → Word) (s u : State) : Prop where
  regs     : ∀ r, u.readReg r = base r
  storeReg : u.storeReg = s.storeReg
  pcHalt   : u.pcHalt = (s.pcHalt || jumped)
  pcDouble : u.pcDouble = (s.pcDouble || o.isLong)
  machine  : KeepsMachine s u

theorem State.afterDecode_unitEffect (s : State) (o : Operand2) :
    UnitEffect o false s.readReg s (s.afterDecode o) where
  regs     := s.afterDecode_readReg o
  storeReg := s.afterDecode_storeReg o
  pcHalt   := by simp
  pcDouble := s.afterDecode_pcDouble o
  machine  := by constructor <;> simp

theorem State.afterDecode_keepsFlow (s : State) (o : Operand2) : KeepsFlow o s (s.afterDecode o) where
  mask    := s.afterDecode_mask o
  pending := s.afterDecode_pending o
  wfi     := s.afterDecode_wfi o
  halt    := s.afterDecode_halt o

section
variable {o : Operand2} {jumped : Bool} {base : Reg → Word} {s u : State}

theorem UnitEffect.memStore (h : UnitEffect o jumped base s u) (a : Word) (n : Nat) (v : Word) :
    UnitEffect o jumped base s (u.memStore a n v) where
  regs r   := (u.memStore_readReg a n v r).trans (h.regs r)
  storeReg := h.storeReg
  pcHalt   := h.pcHalt
  pcDouble := h.pcDouble
  machine  := ⟨h.machine.runState, h.machine.params, h.machine.requests, h.machine.lastDecoded⟩

theorem KeepsFlow.memStore (h : KeepsFlow o s u) (a : Word) (n : Nat) (v : Word) :
    KeepsFlow o s (u.memStore a n v) :=
  ⟨h.mask, h.pending, h.wfi, h.halt⟩

/-- An internal SP update passes the write port by (10_state.md R23). -/
theorem UnitEffect.withSp (h : UnitEffect o jumped s.readReg s u) (v : Word) :
    UnitEffect o jumped (s.regsWithSp v) s (u.withSp v) where
  regs r   := by rw [State.withSp_readReg, h.regs, State.regsWithSp]
  storeReg := h.storeReg
  pcHalt   := h.pcHalt
  pcDouble := h.pcDouble
  machine  := ⟨h.machine.runState, h.machine.params, h.machine.requests, h.machine.lastDecoded⟩

theorem KeepsFlow.withSp (h : KeepsFlow o s u) (v : Word) : KeepsFlow o s (u.withSp v) :=
  ⟨h.mask, h.pending, h.wfi, h.halt⟩

/-! ### The two ends of an instruction (44_cycle.md R181, R182) -/

theorem UnitEffect.finishResult (h : UnitEffect o false base s u) (hflow : KeepsFlow o s u) (rd : Reg) (v : Word) :
    ResultEffect rd o v base s (u.finishResult rd v) where
  regs r   := by rw [State.finishResult_readReg, h.regs]
  storeReg := u.finishResult_storeReg rd v
  pcHalt   := by simp [h.pcHalt]
  pcDouble := by simp [h.pcDouble]
  flow     := by constructor <;> simp [hflow.mask, hflow.pending, hflow.wfi, hflow.halt]
  machine  := by
    constructor <;> simp [h.machine.runState, h.machine.params, h.machine.requests, h.machine.lastDecoded]

theorem UnitEffect.finishNoResult (h : UnitEffect o jumped base s u) (hcarry : u.carry = s.carry) (rd : Reg) :
    NoResultEffect rd o jumped base s (u.finishNoResult rd) where
  regs     := ⟨u.freeValue, fun r => by rw [State.finishNoResult_readReg, h.storeReg, h.regs]⟩
  storeReg := by simp [h.storeReg]
  pcHalt   := by simp [h.pcHalt, h.storeReg]
  pcDouble := by simp [h.pcDouble]
  carry    := by simp [hcarry]
  machine  := by
    constructor <;> simp [h.machine.runState, h.machine.params, h.machine.requests, h.machine.lastDecoded]

theorem KeepsFlow.finishNoResult (h : KeepsFlow o s u) (rd : Reg) : KeepsFlow o s (u.finishNoResult rd) := by
  constructor <;> simp [h.mask, h.pending, h.wfi, h.halt]

end

/-! ### The bytes of memory (20_memory.md R58) -/

/-- What a store puts in memory and what it keeps, for a state that differs from it outside memory only. -/
theorem storedBytes_of_mem_eq {s t : State} {a v : Word} {n : Nat} (hn : n ≤ Config.memSize)
    (h : t.mem = (s.memStore a n v).mem) :
    (∀ k < n, t.byteAt a k = storedByte s.params n v k) ∧ KeepsMemOutside a n s t := by
  refine ⟨fun k hk => ?_, fun c hc => ?_⟩
  · rw [← s.memStore_byteAt a v hn hk, State.byteAt, State.byteAt, h]
  · rw [h]
    exact s.memStore_keepsMemOutside a n v c hc

/-- A read in range of bytes above the only ones that may have changed. -/
theorem KeepsMemOutside.readSum_above {s t : State} {a b : Word} {n m : Nat} (h : KeepsMemOutside a n s t)
    (hp : t.params = s.params) (ha : a.toNat + n ≤ b.toNat) (hb : b.toNat + m ≤ Config.memSize) :
    t.readSum b m = s.readSum b m := by
  rw [← State.memValue_eq_readSum, ← State.memValue_eq_readSum]
  refine State.memValue_congr hp fun k hk => h _ fun j hj => ?_
  rw [byteAddr_of_lt _ _ (by omega), byteAddr_of_lt _ _ (by omega)]
  omega

/-! ### The memory unit when the access is allowed (R100 to R108) -/

theorem State.accessAllowed_of_le {s : State} {a : Word} {n : Nat} (h : a.toNat + n ≤ Config.memSize) :
    s.accessAllowed a n = true := by
  simp [State.accessAllowed, h]

theorem State.loadResult_allowed {s : State} {n : Nat} {ra : Reg} (rd : Reg) (o : Operand2)
    (h : s.accessAllowed (s.operand1 ra) n = true) :
    s.loadResult n rd ra o =
      (s.afterDecode o).finishResult rd (BitVec.ofNat 32 (s.readSum (s.operand1 ra) n)) := by
  simp [State.loadResult, h, ← State.memValue_eq_readSum]

theorem State.storeValue_allowed {s : State} {n : Nat} {ra : Reg} (rd : Reg) (o : Operand2)
    (h : s.accessAllowed (s.operand1 ra) n = true) :
    s.storeValue n rd ra o =
      ((s.afterDecode o).memStore (s.operand1 ra) n (s.operand2 o)).finishNoResult rd := by
  simp [State.storeValue, h]

theorem exec_push_allowed {s : State} (rd ra : Reg) (o : Operand2) (h : s.accessAllowed s.sp 4 = true) :
    exec (.push rd ra o) s =
      .next ((((s.afterDecode o).memStore s.sp 4 (s.operand2 o)).withSp (s.sp + 4)).finishNoResult rd) := by
  simp [exec, execPush, h]

theorem exec_pop_allowed {s : State} (rd ra : Reg) (o : Operand2) (h : s.accessAllowed s.sp 4 = true) :
    exec (.pop rd ra o) s =
      .next (((s.afterDecode o).withSp (s.sp - 4)).finishResult rd (BitVec.ofNat 32 (s.readSum s.sp 4))) := by
  simp [exec, execPop, h, ← State.memValue_eq_readSum]

/-- A load of any width. -/
theorem State.loadResult_effect {s : State} {n : Nat} {ra : Reg} (rd : Reg) (o : Operand2)
    (h : s.accessAllowed (s.operand1 ra) n = true) :
    ResultEffect rd o (BitVec.ofNat 32 (s.readSum (s.operand1 ra) n)) s.readReg s (s.loadResult n rd ra o) ∧
      (s.loadResult n rd ra o).carry = s.carry ∧ KeepsMem s (s.loadResult n rd ra o) := by
  rw [State.loadResult_allowed rd o h]
  exact ⟨(s.afterDecode_unitEffect o).finishResult (s.afterDecode_keepsFlow o) rd _, by simp, fun c => by simp⟩

/-- A store of any width that memory has room for. -/
theorem State.storeValue_leaves {s : State} {n : Nat} {ra : Reg} (rd : Reg) (o : Operand2) (hn : n ≤ Config.memSize)
    (h : s.accessAllowed (s.operand1 ra) n = true) : StoreLeaves n rd ra o s (s.storeValue n rd ra o) := by
  rw [State.storeValue_allowed rd o h]
  exact ⟨((s.afterDecode_unitEffect o).memStore _ _ _).finishNoResult (by simp) rd,
    ((s.afterDecode_keepsFlow o).memStore _ _ _).finishNoResult rd, storedBytes_of_mem_eq hn (by simp)⟩

/-! ### The statements -/

/-- Settles O15: one load at three widths. -/
theorem loadsWidenWithZeros : Obligations.LoadsWidenWithZeros := by
  unfold Obligations.LoadsWidenWithZeros
  intro rd ra o s
  exact ⟨fun h => ⟨_, rfl, State.loadResult_effect rd o h⟩, fun h => ⟨_, rfl, State.loadResult_effect rd o h⟩,
    fun h => ⟨_, rfl, State.loadResult_effect rd o h⟩⟩

/-- Settles O16: one store at three widths. -/
theorem storesWriteLowBytes : Obligations.StoresWriteLowBytes := by
  unfold Obligations.StoresWriteLowBytes
  intro rd ra o s
  exact ⟨fun h => ⟨_, rfl, State.storeValue_leaves rd o (by decide) h⟩,
    fun h => ⟨_, rfl, State.storeValue_leaves rd o (by decide) h⟩,
    fun h => ⟨_, rfl, State.storeValue_leaves rd o (by decide) h⟩⟩

/-- Settles O17: the store is at the SP before the update, and the update is before the writeback. -/
theorem pushWritesAtSpThenGrows : Obligations.PushWritesAtSpThenGrows := by
  unfold Obligations.PushWritesAtSpThenGrows
  intro rd ra o s h
  refine ⟨_, exec_push_allowed rd ra o h, ?_, ?_, storedBytes_of_mem_eq (by decide) (by simp)⟩
  · exact (((s.afterDecode_unitEffect o).memStore _ _ _).withSp _).finishNoResult (by simp) rd
  · exact (((s.afterDecode_keepsFlow o).memStore _ _ _).withSp _).finishNoResult rd

/-- Settles O18: the SP update is before the writeback, so rd = SP receives the word. -/
theorem popReadsAtSpThenShrinks : Obligations.PopReadsAtSpThenShrinks := by
  unfold Obligations.PopReadsAtSpThenShrinks
  intro rd ra o s h
  refine ⟨_, exec_pop_allowed rd ra o h, ?_, by simp, fun c => by simp⟩
  exact ((s.afterDecode_unitEffect o).withSp _).finishResult ((s.afterDecode_keepsFlow o).withSp _) rd _

/-- Settles O21, from O17 and O18: POP reads at the SP that PUSH has moved past its own four bytes, and those above
them are as they were. -/
theorem pushThenPopReadsTheWordAbove : Obligations.PushThenPopReadsTheWordAbove := by
  unfold Obligations.PushThenPopReadsTheWordAbove
  intro rd ra ra' o o' s hroom hr0 hsp
  have hnext : (s.sp + 4).toNat = s.sp.toNat + 4 := by bv_omega
  have habove : (s.sp + 4).toNat + 4 ≤ Config.memSize := by rw [hnext]; exact hroom
  obtain ⟨t, hpush, hpushed, -, -, hmem⟩ := pushWritesAtSpThenGrows .r0 ra o s
    (State.accessAllowed_of_le (by omega))
  obtain ⟨_, hregs⟩ := hpushed.regs
  have htsp : t.sp = s.sp + 4 := by simpa [State.regsWithSp] using hregs .sp
  obtain ⟨u, hpop, hpopped, -, -⟩ := popReadsAtSpThenShrinks rd ra' o' t
    (State.accessAllowed_of_le (by rwa [htsp]))
  have hrd : u.readReg rd = BitVec.ofNat 32 (t.readSum t.sp 4) := by simpa [hr0] using hpopped.regs rd
  have husp : u.sp = t.sp - 4 := by simpa [State.regsWithSp, hsp.symm] using hpopped.regs .sp
  refine ⟨t, u, hpush, hpop, ?_, ?_⟩
  · rw [husp, htsp, BitVec.add_sub_cancel]
  · rw [hrd, htsp, hmem.readSum_above hpushed.machine.params hnext.ge habove]

end Sys2Proof.Machine
end

section
/-!
PROOFS. The statements about the flow-control unit (42_flow_control.md): BNZ (R120), WFI and HALT (R121, R126), the
bits of M and P (R122 to R125, R128), and opcode 0x0F as no operation (R127).

The plan: `UnitEffect` is kept by a write of M, P, F.WFI or F.HALT, and a jump moves it to the registers with the new
PC; the two ends of an instruction turn it into the effects of the statements. One bit of M or P is `readLine` and
`writeLine`.
-/

namespace Sys2Proof.Machine

open Sys2Proof

/-! ### What the unit writes before the end of an instruction -/

section
variable {o : Operand2} {jumped : Bool} {base : Reg → Word} {s u v : State}

/-- M, P, F.WFI and F.HALT are outside `UnitEffect`: a unit may write any of them. -/
theorem UnitEffect.of_flow_written (h : UnitEffect o jumped base s u)
    (hv : v = { u with mask := v.mask, pending := v.pending, wfi := v.wfi, halt := v.halt }) :
    UnitEffect o jumped base s v := by
  rw [hv]
  exact {
    regs := fun r => Eq.trans (by cases r <;> rfl) (h.regs r)
    storeReg := h.storeReg
    pcHalt := h.pcHalt
    pcDouble := h.pcDouble
    machine := ⟨h.machine.runState, h.machine.params, h.machine.requests, h.machine.lastDecoded⟩ }

/-- A jump sets F.PC_HALT with PC (10_state.md R27). -/
theorem UnitEffect.jumpTo (h : UnitEffect o false s.readReg s u) (target : Word) :
    UnitEffect o true (s.regsWithPc target) s (u.jumpTo target) where
  regs r   := by rw [State.jumpTo_readReg, h.regs, State.regsWithPc]
  storeReg := h.storeReg
  pcHalt   := by simp
  pcDouble := h.pcDouble
  machine  := ⟨h.machine.runState, h.machine.params, h.machine.requests, h.machine.lastDecoded⟩

theorem KeepsFlow.jumpTo (h : KeepsFlow o s u) (target : Word) : KeepsFlow o s (u.jumpTo target) :=
  ⟨h.mask, h.pending, h.wfi, h.halt⟩

end

/-- PC replaced by itself. -/
theorem State.regsWithPc_self (s : State) : s.regsWithPc s.pc = s.readReg := by
  funext r
  unfold State.regsWithPc
  split
  · next h => rw [h, State.readReg_pc]
  · rfl

/-- One bit of M or P as a word (R128). -/
theorem readLine_eq (lines : Lines) (index : Word) :
    readLine lines index = if index.toNat < 16 ∧ lines.getLsbD index.toNat = true then 1 else 0 := by
  unfold readLine
  by_cases h : index.toNat < 16 <;> simp [Config.irqLines, h]

/-! ### Instructions by what they write -/

/-- An instruction that does nothing but what the decoder and its result do. -/
theorem State.onlyResult_effect (s : State) (o : Operand2) (rd : Reg) (v : Word) :
    ((s.afterDecode o).finishResult rd v).carry = s.carry ∧ KeepsMem s ((s.afterDecode o).finishResult rd v) ∧
      ResultEffect rd o v s.readReg s ((s.afterDecode o).finishResult rd v) :=
  ⟨by simp, fun c => by simp, (s.afterDecode_unitEffect o).finishResult (s.afterDecode_keepsFlow o) rd v⟩

/-- An instruction without a result that does nothing but what the decoder does. -/
theorem State.noOperation_effect (s : State) (o : Operand2) (rd : Reg) :
    NoResultEffect rd o false s.readReg s ((s.afterDecode o).finishNoResult rd) ∧
      KeepsFlow o s ((s.afterDecode o).finishNoResult rd) ∧ KeepsMem s ((s.afterDecode o).finishNoResult rd) :=
  ⟨(s.afterDecode_unitEffect o).finishNoResult (by simp) rd, (s.afterDecode_keepsFlow o).finishNoResult rd,
    fun c => by simp⟩

/-- An instruction without a result that writes M, P, F.WFI or F.HALT after the decoder. -/
theorem State.flowWrite_effect {s u : State} {o : Operand2} (rd : Reg)
    (hu : u = { s.afterDecode o with mask := u.mask, pending := u.pending, wfi := u.wfi, halt := u.halt }) :
    NoResultEffect rd o false s.readReg s (u.finishNoResult rd) ∧ KeepsMem s (u.finishNoResult rd) := by
  have hcarry : u.carry = s.carry := by rw [hu]; exact s.afterDecode_carry o
  have hmem : u.mem = s.mem := by rw [hu]; exact s.afterDecode_mem o
  exact ⟨((s.afterDecode_unitEffect o).of_flow_written hu).finishNoResult hcarry rd, fun c => by simp [hmem]⟩

/-- A taken BNZ (R120). -/
theorem exec_bnz_taken {s : State} {ra : Reg} (rd : Reg) (o : Operand2) (h : s.readReg ra ≠ 0) :
    exec (.bnz rd ra o) s = .next (((s.afterDecode o).jumpTo (s.operand2 o)).finishNoResult rd) := by
  have hcond : nonzero (s.readReg ra) = true := decide_eq_true h
  simp [exec, execBnz, State.operand1, hcond]

/-- A BNZ that is not taken (R120). -/
theorem exec_bnz_notTaken {s : State} {ra : Reg} (rd : Reg) (o : Operand2) (h : s.readReg ra = 0) :
    exec (.bnz rd ra o) s = .next ((s.afterDecode o).finishNoResult rd) := by
  simp [exec, execBnz, State.operand1, nonzero, h]

/-- MSKW (R122). -/
theorem exec_mskw_eq (rd ra : Reg) (o : Operand2) (s : State) :
    exec (.mskw rd ra o) s = .next (((s.afterDecode o).withMask
      (writeLine s.mask (s.readReg ra) (decide (s.operand2 o ≠ 0)))).finishNoResult rd) := by
  simp [exec, execMskw, State.operand1, nonzero]

/-- PNDW writes P as the decoder has left it (R124; 44_cycle.md R183). -/
theorem exec_pndw_eq (rd ra : Reg) (o : Operand2) (s : State) :
    exec (.pndw rd ra o) s = .next (((s.afterDecode o).withPending
      (writeLine (decodedPending s o) (s.readReg ra) (decide (s.operand2 o ≠ 0)))).finishNoResult rd) := by
  simp [exec, execPndw, State.operand1, nonzero, decodedPending]

/-- MSKR (R123). -/
theorem exec_mskr_eq (rd ra : Reg) (o : Operand2) (s : State) :
    exec (.mskr rd ra o) s = .next ((s.afterDecode o).finishResult rd (readLine s.mask (s.readReg ra))) := by
  simp [exec, execMskr, State.operand1]

/-- PNDR with OP_0D_MODE = read_mask (R125). -/
theorem exec_pndr_readMask {s : State} (rd ra : Reg) (o : Operand2) (h : s.params.op0dMode = .readMask) :
    exec (.pndr rd ra o) s = .next ((s.afterDecode o).finishResult rd (readLine s.mask (s.readReg ra))) := by
  simp [exec, execPndr, State.operand1, h]

/-- PNDR with OP_0D_MODE = read_pending: P is read after the decoder's fault (R125; 44_cycle.md R183). -/
theorem exec_pndr_readPending {s : State} (rd ra : Reg) (o : Operand2) (h : s.params.op0dMode = .readPending) :
    exec (.pndr rd ra o) s =
      .next ((s.afterDecode o).finishResult rd (readLine (decodedPending s o) (s.readReg ra))) := by
  simp [exec, execPndr, State.operand1, decodedPending, h]

/-- Opcode 0x0F with OP_0F_MODE = flow_nop (R127). -/
theorem exec_invalid0f_flowNop {s : State} (rd ra : Reg) (o : Operand2) (h : s.params.op0fMode = .flowNop) :
    exec (.invalid0f rd ra o) s = .next ((s.afterDecode o).finishNoResult rd) := by
  simp [exec, execInvalid0f, h]

/-! ### The statements -/

/-- Settles O22: the jump is before the writeback, so a sticky rd = PC overwrites the target. -/
theorem branchTakenOrNot : Obligations.BranchTakenOrNot := by
  unfold Obligations.BranchTakenOrNot
  intro rd ra o s
  by_cases h : s.readReg ra = 0
  · have hnone : s.regsWithPc (if s.readReg ra ≠ 0 then s.operand2 o else s.pc) = s.readReg := by
      rw [if_neg (not_not.mpr h), State.regsWithPc_self]
    rw [hnone, decide_eq_false (not_not.mpr h)]
    exact ⟨_, exec_bnz_notTaken rd o h, s.noOperation_effect o rd⟩
  · rw [if_pos h, decide_eq_true h]
    exact ⟨_, exec_bnz_taken rd o h, ((s.afterDecode_unitEffect o).jumpTo _).finishNoResult (by simp) rd,
      ((s.afterDecode_keepsFlow o).jumpTo _).finishNoResult rd, fun c => by simp⟩

/-- Settles O23: one flag written, and the rest of the flow-control state is the decoder's. -/
theorem waitAndHaltSetTheirFlag : Obligations.WaitAndHaltSetTheirFlag := by
  unfold Obligations.WaitAndHaltSetTheirFlag
  intro rd ra o s
  constructor
  · obtain ⟨heffect, hmem⟩ := State.flowWrite_effect (u := (s.afterDecode o).withWfi true) rd rfl
    exact ⟨_, rfl, heffect, hmem, by simp, by simp, by simp, by simp [decodedPending]⟩
  · obtain ⟨heffect, hmem⟩ := State.flowWrite_effect (u := (s.afterDecode o).markHalt) rd rfl
    exact ⟨_, rfl, heffect, hmem, by simp, by simp, by simp, by simp [decodedPending]⟩

/-- Settles O24, by the bits of `writeLine`. -/
theorem maskAndPendingBitWrites : Obligations.MaskAndPendingBitWrites := by
  unfold Obligations.MaskAndPendingBitWrites
  intro rd ra o s
  constructor
  · obtain ⟨heffect, hmem⟩ := State.flowWrite_effect rd
      (u := (s.afterDecode o).withMask (writeLine s.mask (s.readReg ra) (decide (s.operand2 o ≠ 0)))) rfl
    refine ⟨_, exec_mskw_eq rd ra o s, heffect, hmem, fun k hk => ?_, by simp [decodedPending], by simp, by simp⟩
    rw [State.finishNoResult_mask, State.withMask_mask, getLsbD_writeLine _ _ _ _ hk]
  · obtain ⟨heffect, hmem⟩ := State.flowWrite_effect rd
      (u := (s.afterDecode o).withPending
        (writeLine (decodedPending s o) (s.readReg ra) (decide (s.operand2 o ≠ 0)))) rfl
    refine ⟨_, exec_pndw_eq rd ra o s, heffect, hmem, fun k hk => ?_, by simp, by simp, by simp⟩
    rw [State.finishNoResult_pending, State.withPending_pending, getLsbD_writeLine _ _ _ _ hk]

/-- Settles O25: three reads of one bit, of M, of M and of P as the decoder has left it. -/
theorem maskAndPendingBitReads : Obligations.MaskAndPendingBitReads := by
  unfold Obligations.MaskAndPendingBitReads
  intro rd ra o s
  simp only [← readLine_eq]
  exact ⟨⟨_, exec_mskr_eq rd ra o s, s.onlyResult_effect o rd _⟩,
    fun h => ⟨_, exec_pndr_readMask rd ra o h, s.onlyResult_effect o rd _⟩,
    fun h => ⟨_, exec_pndr_readPending rd ra o h, s.onlyResult_effect o rd _⟩⟩

/-- Settles O27: the decoder's effects and the end of an instruction without a result. -/
theorem opcodeFifteenAsNoOperation : Obligations.OpcodeFifteenAsNoOperation := by
  unfold Obligations.OpcodeFifteenAsNoOperation
  intro rd ra o s h
  exact ⟨_, exec_invalid0f_flowNop rd ra o h, s.noOperation_effect o rd⟩

end Sys2Proof.Machine
end

section
/-!
PROOFS. The statements about the ALU (43_alu.md): ADC and SBC (R140, R141, R153), CMP (R142), the bitwise operations
(R143 to R145), the shifts and the rotate (R146 to R150), the invalid opcodes (R156; 42_flow_control.md R127), and who
sets F.STORE_REG and uses C (R155).

The plan: what an ALU operation leaves is said once for the operations without C (`exists_aluResult`) and once for the
wide sums (`State.aluSum_resultEffect`), so each statement comes down to a fact about words. That C is not read is
`exec_withCarry`: C is carried unchanged through every operation over the state.
-/

namespace Sys2Proof.Machine

open Sys2Proof

/-! ### The values of the operations as words and numbers -/

/-- A carry with a weight is a product. -/
theorem ite_carry (c : Bool) (weight : Nat) : (if c then weight else 0) = c.toNat * weight := by
  cases c <;> simp

/-- The carry and the result of a 33-bit sum make up the sum (R140). -/
theorem sumCarry_add_sumResult {sum : Nat} (h : sum < 2 ^ 33) :
    (sumCarry sum).toNat * 2 ^ 32 + (sumResult sum).toNat = sum := by
  rw [← ite_carry, sumResult, BitVec.toNat_ofNat]
  simp only [sumCarry, decide_eq_true_eq]
  split <;> omega

theorem adcSum_lt (a b : Word) (c : Bool) : adcSum a b c < 2 ^ 33 := by
  have ha : a.toNat < 2 ^ 32 := a.isLt
  have hb : b.toNat < 2 ^ 32 := b.isLt
  have hc : c.toNat ≤ 1 := c.toNat_le
  unfold adcSum
  omega

theorem sumResult_adcSum (a b : Word) (c : Bool) : sumResult (adcSum a b c) = a + b + if c then 1 else 0 := by
  cases c <;> simp [sumResult, adcSum, BitVec.ofNat_add]

theorem sumCarry_adcSum (a b : Word) (c : Bool) :
    sumCarry (adcSum a b c) = decide (2 ^ 32 ≤ a.toNat + b.toNat + if c then 1 else 0) := by
  cases c <;> rfl

/-- The complement in the wide sum of SBC is a subtraction (R153). -/
theorem sumResult_sbcSum (a b : Word) (c : Bool) : sumResult (sbcSum a b c) = a - b - if c then 1 else 0 := by
  have hwords : sumResult (sbcSum a b c) = a + ~~~b + BitVec.ofNat 32 (!c).toNat := by
    rw [sumResult, sbcSum, BitVec.ofNat_add, BitVec.ofNat_add, BitVec.ofNat_toNat, BitVec.ofNat_toNat,
      BitVec.setWidth_eq, BitVec.setWidth_eq]
  rw [hwords]
  cases c
  · simp only [Bool.not_false, Bool.toNat_true, Bool.false_eq_true, if_false]
    bv_omega
  · simp only [Bool.not_true, Bool.toNat_false, if_true]
    bv_omega

/-- The wide sum of SBC passes 2^32 exactly when nothing is borrowed (R141). -/
theorem sumCarry_sbcSum (a b : Word) (c : Bool) :
    sumCarry (sbcSum a b c) = if c then decide (b.toNat < a.toNat) else decide (b.toNat ≤ a.toNat) := by
  have hnot : (~~~b).toNat = 2 ^ 32 - 1 - b.toNat := BitVec.toNat_not
  have hb : b.toNat < 2 ^ 32 := b.isLt
  unfold sumCarry sbcSum
  cases c
  · exact decide_eq_decide.mpr (by simp only [Bool.not_false, Bool.toNat_true]; omega)
  · exact decide_eq_decide.mpr (by simp only [Bool.not_true, Bool.toNat_false]; omega)

theorem compareResult_of_gt {a b : Word} (h : b.toNat < a.toNat) : compareResult a b = 0x00000001#32 :=
  if_pos h

theorem compareResult_self (a : Word) : compareResult a a = 0x00000000#32 := by
  simp [compareResult]

theorem compareResult_of_lt {a b : Word} (h : a.toNat < b.toNat) : compareResult a b = 0xFFFFFFFF#32 := by
  have hne : a ≠ b := fun heq => h.ne (congrArg BitVec.toNat heq)
  rw [compareResult, if_neg (Nat.not_lt.mpr h.le), if_neg hne]

theorem compareResult_eq_one_iff (a b : Word) : compareResult a b = 1 ↔ b.toNat < a.toNat := by
  rcases Nat.lt_trichotomy a.toNat b.toNat with h | h | h
  · simp [compareResult_of_lt h, h.le]
  · simp [BitVec.eq_of_toNat_eq h, compareResult_self]
  · simp [compareResult_of_gt h, h]

theorem compareResult_eq_allOnes_iff (a b : Word) : compareResult a b = 0xFFFFFFFF#32 ↔ a.toNat < b.toNat := by
  rcases Nat.lt_trichotomy a.toNat b.toNat with h | h | h
  · simp [compareResult_of_lt h, h]
  · simp [BitVec.eq_of_toNat_eq h, compareResult_self]
  · simp [compareResult_of_gt h, h.le]

theorem compareResult_ne_zero_iff (a b : Word) : compareResult a b ≠ 0 ↔ a ≠ b := by
  rcases Nat.lt_trichotomy a.toNat b.toNat with h | h | h
  · have hne : a ≠ b := fun heq => h.ne (congrArg BitVec.toNat heq)
    simp [compareResult_of_lt h, hne]
  · simp [BitVec.eq_of_toNat_eq h, compareResult_self]
  · have hne : a ≠ b := fun heq => h.ne' (congrArg BitVec.toNat heq)
    simp [compareResult_of_gt h, hne]

/-- SHIFT_POLICY = saturate acts on amounts of 32 and more (R150). -/
theorem saturated_eq_true_iff (p : Config.ShiftPolicy) (amount : Word) :
    saturated p amount = true ↔ p = .saturate ∧ 32 ≤ amount.toNat := by
  cases p <;> simp [saturated]

theorem shiftRightLogical_eq (p : Config.ShiftPolicy) (v amount : Word) :
    shiftRightLogical p v amount =
      if p = .saturate ∧ 32 ≤ amount.toNat then 0 else BitVec.ofNat 32 (v.toNat / 2 ^ (amount.toNat % 32)) := by
  have hshift : v >>> lowAmount amount = BitVec.ofNat 32 (v.toNat / 2 ^ (amount.toNat % 32)) := by
    rw [← Nat.shiftRight_eq_div_pow, ← BitVec.toNat_ushiftRight, BitVec.ofNat_toNat, BitVec.setWidth_eq, lowAmount]
  simp only [shiftRightLogical, saturated_eq_true_iff, hshift]

theorem shiftLeft_eq (p : Config.ShiftPolicy) (v amount : Word) :
    shiftLeft p v amount =
      if p = .saturate ∧ 32 ≤ amount.toNat then 0 else BitVec.ofNat 32 (v.toNat * 2 ^ (amount.toNat % 32)) := by
  have hshift : v <<< lowAmount amount = BitVec.ofNat 32 (v.toNat * 2 ^ (amount.toNat % 32)) :=
    BitVec.eq_of_toNat_eq (by simp [lowAmount, Nat.shiftLeft_eq])
  simp only [shiftLeft, saturated_eq_true_iff, hshift]

theorem shiftRightArith_eq (p : Config.ShiftPolicy) (v amount : Word) :
    shiftRightArith p v amount =
      if p = .saturate ∧ 32 ≤ amount.toNat then (if v.getLsbD 31 then 0xFFFFFFFF#32 else 0)
      else BitVec.ofInt 32 (v.toInt / 2 ^ (amount.toNat % 32)) := by
  have hshift : v.sshiftRight (lowAmount amount) = BitVec.ofInt 32 (v.toInt / 2 ^ (amount.toNat % 32)) := by
    simp [BitVec.sshiftRight, lowAmount, Int.shiftRight_eq_div_pow]
  simp only [shiftRightArith, saturated_eq_true_iff, hshift, BitVec.msb_eq_getLsbD_last]

/-- The two halves of the model's rotate are the rotation of the library (R149). -/
theorem rotateRight_eq (v amount : Word) : rotateRight v amount = v.rotateRight amount.toNat := by
  unfold rotateRight
  split
  · next h => simp_all [lowAmount, BitVec.rotateRight, BitVec.rotateRightAux]
  · rfl

theorem getLsbD_rotateRight (v amount : Word) {k : Nat} (hk : k < 32) :
    (rotateRight v amount).getLsbD k = v.getLsbD ((k + amount.toNat) % 32) := by
  rw [rotateRight_eq, BitVec.getLsbD_rotateRight]
  simp only [cond_eq_ite, decide_eq_true_eq, hk, decide_true, Bool.true_and]
  split
  · next hlow => congr 1; omega
  · next hhigh => congr 1; omega

/-! ### What an operation leaves (R155, R156; 44_cycle.md R181) -/

/-- An operation without C completes, and its result has every property P that f gives its operands. -/
theorem exists_aluResult {i : Instr} {s : State} {f : Word → Word → Word} {rd ra : Reg} {o : Operand2}
    {P : Word → Prop} (h : exec i s = .next (s.aluResult f rd ra o)) (hP : P (f (s.readReg ra) (s.operand2 o))) :
    ∃ t v, exec i s = .next t ∧ ResultEffect rd o v s.readReg s t ∧ KeepsMem s t ∧ t.carry = s.carry ∧ P v := by
  obtain ⟨hcarry, hmem, heffect⟩ := s.onlyResult_effect o rd (f (s.readReg ra) (s.operand2 o))
  exact ⟨_, _, h, heffect, hmem, hcarry, hP⟩

/-- C is outside `UnitEffect`, and a draw for it is of the model's counter alone. -/
theorem UnitEffect.writeCarry {o : Operand2} {jumped : Bool} {base : Reg → Word} {s u : State}
    (h : UnitEffect o jumped base s u) (o' : Operand2) (c : Bool) :
    UnitEffect o jumped base s (u.writeCarry o' c) where
  regs r   := (u.writeCarry_readReg o' c r).trans (h.regs r)
  storeReg := (u.writeCarry_storeReg o' c).trans h.storeReg
  pcHalt   := (u.writeCarry_pcHalt o' c).trans h.pcHalt
  pcDouble := (u.writeCarry_pcDouble o' c).trans h.pcDouble
  machine  := by
    constructor <;> simp [h.machine.runState, h.machine.params, h.machine.requests, h.machine.lastDecoded]

theorem KeepsFlow.writeCarry {o : Operand2} {s u : State} (h : KeepsFlow o s u) (o' : Operand2) (c : Bool) :
    KeepsFlow o s (u.writeCarry o' c) := by
  constructor <;> simp [h.mask, h.pending, h.wfi, h.halt]

/-- ADC and SBC, whatever their wide sum. -/
theorem State.aluSum_resultEffect (s : State) (sum : Nat) (rd : Reg) (o : Operand2) :
    KeepsMem s (s.aluSum sum rd o) ∧ ResultEffect rd o (sumResult sum) s.readReg s (s.aluSum sum rd o) ∧
      (o.isInvalid = false → (s.aluSum sum rd o).carry = sumCarry sum) := by
  refine ⟨fun c => by simp [State.aluSum], ?_, fun hmode => ?_⟩
  · exact ((s.afterDecode_unitEffect o).writeCarry o _).finishResult ((s.afterDecode_keepsFlow o).writeCarry o _) rd _
  · obtain ⟨-, hcarry, -⟩ := s.aluSum_effect sum rd o hmode
    exact hcarry

/-- ADC on registers, as a sum over the integers (R140). -/
theorem exec_adc_reg {rd : Reg} (hrd : rd ≠ .r0) (ra rb : Reg) (s : State) :
    ∃ t, exec (.adc rd ra (.reg rb)) s = .next t ∧ (∀ r, r ≠ rd → t.readReg r = s.readReg r) ∧
      t.carry.toNat * 2 ^ 32 + (t.readReg rd).toNat =
        (s.readReg ra).toNat + (s.readReg rb).toNat + s.carry.toNat := by
  obtain ⟨hregs, hcarry, -⟩ := s.aluSum_effect (adcSum (s.readReg ra) (s.readReg rb) s.carry) rd (.reg rb) rfl
  refine ⟨_, rfl, fun r hr => ?_, ?_⟩
  · exact (hregs r).trans (if_neg fun ⟨heq, _⟩ => hr heq)
  · have hresult : (s.aluSum (adcSum (s.readReg ra) (s.readReg rb) s.carry) rd (.reg rb)).readReg rd =
        sumResult (adcSum (s.readReg ra) (s.readReg rb) s.carry) := (hregs rd).trans (if_pos ⟨rfl, hrd⟩)
    rw [State.operand1, State.operand2, hresult, hcarry]
    exact sumCarry_add_sumResult (adcSum_lt _ _ _)

/-- The fault path: the decoder's own IFAULT is the same bit of P (R156). -/
theorem exec_invalidLeaves {i : Instr} {s : State} (h : invalidOpcode s.params i = true) :
    ∃ t, exec i s = .next t ∧ InvalidLeaves (instrFields i).rd (instrOperand2 i) s t := by
  refine ⟨_, exec_of_invalidOpcode h, fun r => by simp [decoded], ?_, by simp [decoded], by simp [decoded],
    by simp [decoded], by simp [decoded], by simp [decoded], by simp [decoded], by simp [decoded],
    fun c => by simp [decoded], by constructor <;> simp [decoded]⟩
  rw [State.writeback_pending, State.raiseIfault_pending, decoded_pending]
  split
  · rw [BitVec.or_assoc, BitVec.or_self]
  · rfl

/-- Every valid ALU operation ends with a result (R155). -/
theorem exec_of_validAlu {i : Instr} (hlow : 16 ≤ (instrFields i).op.toNat) (hhigh : (instrFields i).op.toNat < 26)
    (s : State) : ∃ u v, exec i s = .next (State.finishResult u (instrFields i).rd v) := by
  cases i with
  | adc rd ra o | sbc rd ra o | cmp rd ra o | land rd ra o | lor rd ra o | lnot rd ra o | lsr rd ra o | lsl rd ra o
  | asr rd ra o | ror rd ra o => exact ⟨_, _, rfl⟩
  | invalid1a rd ra o | invalid1b rd ra o | invalid1c rd ra o | invalid1d rd ra o | invalid1e rd ra o
  | invalid1f rd ra o => simp [instrFields] at hhigh
  | _ => simp [instrFields] at hlow

/-! ### C carried through the operations over the state (10_state.md R32) -/

/-- The state with another C. -/
def State.withCarry (s : State) (c : Bool) : State := { s with carry := c }

section
variable (s : State) (c : Bool)

@[simp] theorem State.withCarry_readReg (r : Reg) : (s.withCarry c).readReg r = s.readReg r := by
  cases r <;> rfl

@[simp] theorem State.withCarry_operand1 (ra : Reg) : (s.withCarry c).operand1 ra = s.operand1 ra :=
  s.withCarry_readReg c ra

@[simp] theorem State.withCarry_operand2 (o : Operand2) : (s.withCarry c).operand2 o = s.operand2 o := by
  cases o with
  | reg rb => exact s.withCarry_readReg c rb
  | short n | long rb n | invalid rb => rfl

@[simp] theorem State.withCarry_afterDecode (o : Operand2) :
    (s.withCarry c).afterDecode o = (s.afterDecode o).withCarry c := by
  cases o <;> rfl

@[simp] theorem State.withCarry_writePort (rd : Reg) (v : Word) :
    (s.withCarry c).writePort rd v = (s.writePort rd v).withCarry c := by
  cases rd <;> rfl

@[simp] theorem State.withCarry_writeback (rd : Reg) (v : Word) :
    (s.withCarry c).writeback rd v = (s.writeback rd v).withCarry c := by
  unfold State.writeback
  rw [apply_ite (State.withCarry · c), State.withCarry_writePort]
  rfl

@[simp] theorem State.withCarry_finishResult (rd : Reg) (v : Word) :
    (s.withCarry c).finishResult rd v = (s.finishResult rd v).withCarry c :=
  s.markResult.withCarry_writeback c rd v

@[simp] theorem State.withCarry_finishNoResult (rd : Reg) :
    (s.withCarry c).finishNoResult rd = (s.finishNoResult rd).withCarry c :=
  s.drawn.withCarry_writeback c rd s.freeValue

@[simp] theorem State.withCarry_sp : (s.withCarry c).sp = s.sp := rfl
@[simp] theorem State.withCarry_mask : (s.withCarry c).mask = s.mask := rfl
@[simp] theorem State.withCarry_pending : (s.withCarry c).pending = s.pending := rfl
@[simp] theorem State.withCarry_params : (s.withCarry c).params = s.params := rfl

@[simp] theorem State.withCarry_accessAllowed (a : Word) (n : Nat) :
    (s.withCarry c).accessAllowed a n = s.accessAllowed a n := rfl

@[simp] theorem State.withCarry_memValue (a : Word) (n : Nat) : (s.withCarry c).memValue a n = s.memValue a n := rfl

@[simp] theorem State.withCarry_memStore (a : Word) (n : Nat) (v : Word) :
    (s.withCarry c).memStore a n v = (s.memStore a n v).withCarry c := rfl

@[simp] theorem State.withCarry_stopMemFault : (s.withCarry c).stopMemFault = s.stopMemFault.withCarry c := rfl

@[simp] theorem State.withCarry_withSp (v : Word) : (s.withCarry c).withSp v = (s.withSp v).withCarry c := rfl

@[simp] theorem State.withCarry_jumpTo (v : Word) : (s.withCarry c).jumpTo v = (s.jumpTo v).withCarry c := rfl

@[simp] theorem State.withCarry_withWfi (b : Bool) : (s.withCarry c).withWfi b = (s.withWfi b).withCarry c := rfl

@[simp] theorem State.withCarry_markHalt : (s.withCarry c).markHalt = s.markHalt.withCarry c := rfl

@[simp] theorem State.withCarry_withMask (m : Lines) : (s.withCarry c).withMask m = (s.withMask m).withCarry c := rfl

@[simp] theorem State.withCarry_withPending (p : Lines) :
    (s.withCarry c).withPending p = (s.withPending p).withCarry c := rfl

@[simp] theorem State.withCarry_raiseIfault : (s.withCarry c).raiseIfault = s.raiseIfault.withCarry c := rfl

/-- C is carried out of a choice whose condition does not read it. -/
theorem State.withCarry_ite (P : Prop) [Decidable P] (t : State) :
    (if P then s.withCarry c else t.withCarry c) = (if P then s else t).withCarry c :=
  (apply_ite (State.withCarry · c) P s t).symm

theorem State.withCarry_aluResult (f : Word → Word → Word) (rd ra : Reg) (o : Operand2) :
    (s.withCarry c).aluResult f rd ra o = (s.aluResult f rd ra o).withCarry c := by
  simp [State.aluResult]

theorem State.withCarry_loadResult (n : Nat) (rd ra : Reg) (o : Operand2) :
    (s.withCarry c).loadResult n rd ra o = (s.loadResult n rd ra o).withCarry c := by
  simp [State.loadResult, State.withCarry_ite]

theorem State.withCarry_storeValue (n : Nat) (rd ra : Reg) (o : Operand2) :
    (s.withCarry c).storeValue n rd ra o = (s.storeValue n rd ra o).withCarry c := by
  simp [State.storeValue, State.withCarry_ite]

end

/-- The fault path does not read C (R156). -/
theorem exec_withCarry_of_invalidOpcode {i : Instr} {s : State} (h : invalidOpcode s.params i = true) (c : Bool) :
    ∃ t, exec i s = .next t ∧ exec i (s.withCarry c) = .next (t.withCarry c) := by
  refine ⟨_, exec_of_invalidOpcode h, ?_⟩
  rw [exec_of_invalidOpcode (s := s.withCarry c) h]
  simp [decoded]

/-- An instruction other than ADC and SBC does not read C (R155). -/
theorem exec_withCarry {i : Instr} (hadc : (instrFields i).op ≠ 16#5) (hsbc : (instrFields i).op ≠ 17#5)
    (s : State) (c : Bool) : ∃ t, exec i s = .next t ∧ exec i (s.withCarry c) = .next (t.withCarry c) := by
  cases i with
  | adc rd ra o => exact absurd rfl hadc
  | sbc rd ra o => exact absurd rfl hsbc
  | ldb rd ra o | ldh rd ra o | ldw rd ra o =>
    exact ⟨_, rfl, congrArg Host.Outcome.next (s.withCarry_loadResult c _ rd ra o)⟩
  | stb rd ra o | sth rd ra o | stw rd ra o =>
    exact ⟨_, rfl, congrArg Host.Outcome.next (s.withCarry_storeValue c _ rd ra o)⟩
  | cmp rd ra o | land rd ra o | lor rd ra o | lnot rd ra o | lsr rd ra o | lsl rd ra o | asr rd ra o
  | ror rd ra o => exact ⟨_, rfl, congrArg Host.Outcome.next (s.withCarry_aluResult c _ rd ra o)⟩
  | push rd ra o => exact ⟨_, rfl, by simp [exec, execPush, State.withCarry_ite]⟩
  | pop rd ra o => exact ⟨_, rfl, by simp [exec, execPop, State.withCarry_ite]⟩
  | bnz rd ra o => exact ⟨_, rfl, by simp [exec, execBnz, State.withCarry_ite]⟩
  | wfi rd ra o => exact ⟨_, rfl, by simp [exec, execWfi]⟩
  | mskw rd ra o => exact ⟨_, rfl, by simp [exec, execMskw]⟩
  | mskr rd ra o => exact ⟨_, rfl, by simp [exec, execMskr]⟩
  | pndw rd ra o => exact ⟨_, rfl, by simp [exec, execPndw]⟩
  | pndr rd ra o => exact ⟨_, rfl, by simp [exec, execPndr]⟩
  | halt rd ra o => exact ⟨_, rfl, by simp [exec, execHalt]⟩
  | invalid0f rd ra o =>
    cases hmode : s.params.op0fMode with
    | flowNop =>
      refine ⟨_, exec_invalid0f_flowNop rd ra o hmode, ?_⟩
      rw [exec_invalid0f_flowNop (s := s.withCarry c) rd ra o hmode]
      simp
    | aluFault =>
      have hinvalid : invalidOpcode s.params (.invalid0f rd ra o) = true := by simp [invalidOpcode, instrFields, hmode]
      exact exec_withCarry_of_invalidOpcode hinvalid c
  | invalid1a rd ra o | invalid1b rd ra o | invalid1c rd ra o | invalid1d rd ra o | invalid1e rd ra o
  | invalid1f rd ra o => exact exec_withCarry_of_invalidOpcode rfl c

/-! ### The statements -/

/-- Settles O26: the seven opcodes take the one fault path. -/
theorem invalidOpcodesRaiseFault : Obligations.InvalidOpcodesRaiseFault := by
  unfold Obligations.InvalidOpcodesRaiseFault
  intro rd ra o s
  constructor
  · simp only [List.forall_mem_cons, List.not_mem_nil, false_imp_iff, implies_true, and_true]
    exact ⟨exec_invalidLeaves rfl, exec_invalidLeaves rfl, exec_invalidLeaves rfl, exec_invalidLeaves rfl,
      exec_invalidLeaves rfl, exec_invalidLeaves rfl⟩
  · intro hmode
    exact exec_invalidLeaves (i := .invalid0f rd ra o) (by simp [invalidOpcode, instrFields, hmode])

/-- Settles O28, by the wide sum as a word and its bit 32. -/
theorem addWithCarry : Obligations.AddWithCarry := by
  unfold Obligations.AddWithCarry
  intro rd ra o s
  rw [← sumResult_adcSum, ← sumCarry_adcSum]
  exact ⟨_, rfl, s.aluSum_resultEffect _ rd o⟩

/-- Settles O29: adding the complement and 1 - C is subtracting with a borrow. -/
theorem subtractWithBorrow : Obligations.SubtractWithBorrow := by
  unfold Obligations.SubtractWithBorrow
  intro rd ra o s
  rw [← sumResult_sbcSum, ← sumCarry_sbcSum]
  exact ⟨_, rfl, s.aluSum_resultEffect _ rd o⟩

/-- Settles O30: the second ADC reads the C of the first, and registers the first has kept. -/
theorem addChainsThroughCarry : Obligations.AddChainsThroughCarry := by
  unfold Obligations.AddChainsThroughCarry
  intro dLo dHi aLo aHi bLo bHi s hLo hHi hne haHi hbHi
  obtain ⟨t, hlow, hlowKept, hlowSum⟩ := exec_adc_reg hLo aLo bLo s
  obtain ⟨u, hhigh, hhighKept, hhighSum⟩ := exec_adc_reg hHi aHi bHi t
  refine ⟨t, u, hlow, hhigh, ?_⟩
  rw [hlowKept aHi haHi, hlowKept bHi hbHi] at hhighSum
  rw [hhighKept dLo hne.symm]
  simp only [ite_carry]
  linear_combination hlowSum + 2 ^ 32 * hhighSum

/-- Settles O31: the three cases of the order of the operands. -/
theorem compareIsUnsigned : Obligations.CompareIsUnsigned := by
  unfold Obligations.CompareIsUnsigned
  intro rd ra o s
  refine exists_aluResult rfl ⟨compareResult_of_gt, fun h => ?_, compareResult_of_lt⟩
  rw [BitVec.eq_of_toNat_eq h, compareResult_self]

/-- Settles O32: each value of the comparison is one relation of the operands, and two of them are converse. -/
theorem compareIsAntisymmetric : Obligations.CompareIsAntisymmetric := by
  unfold Obligations.CompareIsAntisymmetric
  intro rd ra rb s hrd
  refine ⟨_, _, rfl, rfl, ?_⟩
  have hresult : ∀ ra rb, (s.aluResult compareResult rd ra (.reg rb)).readReg rd =
      compareResult (s.readReg ra) (s.readReg rb) := fun ra rb => by
    simp [State.aluResult, State.operand1, State.operand2, hrd]
  rw [hresult, hresult, compareResult_eq_one_iff, compareResult_eq_allOnes_iff]
  exact ⟨Iff.rfl, compareResult_ne_zero_iff _ _⟩

/-- Settles O33, by the bits of the three operators on words. -/
theorem logicIsBitwise : Obligations.LogicIsBitwise := by
  unfold Obligations.LogicIsBitwise
  intro rd ra o s
  refine ⟨exists_aluResult rfl fun k _ => BitVec.getLsbD_and, exists_aluResult rfl fun k _ => BitVec.getLsbD_or,
    exists_aluResult rfl fun k hk => ?_⟩
  simp [hk]

/-- Settles O34: each shift is the arithmetic of its rule, under either policy. -/
theorem shiftsByPowersOfTwo : Obligations.ShiftsByPowersOfTwo := by
  unfold Obligations.ShiftsByPowersOfTwo
  intro rd ra o s
  exact ⟨exists_aluResult rfl (shiftRightLogical_eq _ _ _), exists_aluResult rfl (shiftLeft_eq _ _ _),
    exists_aluResult rfl (shiftRightArith_eq _ _ _)⟩

/-- Settles O35, by the bits of the rotate. -/
theorem rotateMovesEveryBit : Obligations.RotateMovesEveryBit := by
  unfold Obligations.RotateMovesEveryBit
  intro rd ra o s
  exact exists_aluResult rfl fun k hk => getLsbD_rotateRight _ _ hk

/-- Settles O36: F.STORE_REG by the two ends of an ALU operation, C by who writes it and by `exec_withCarry`. -/
theorem onlyAdcAndSbcUseCarry : Obligations.OnlyAdcAndSbcUseCarry := by
  unfold Obligations.OnlyAdcAndSbcUseCarry
  refine ⟨fun i s t hop h => ?_, fun i s t c hadc hsbc h => ⟨?_, ?_⟩⟩
  · split
    · next hvalid =>
      obtain ⟨u, v, hu⟩ := exec_of_validAlu hop hvalid s
      obtain rfl : u.finishResult (instrFields i).rd v = t := by simpa [hu] using h
      exact u.finishResult_storeReg _ v
    · next hinvalid =>
      have hinvalid : invalidOpcode s.params i = true := by simp [invalidOpcode, Nat.not_lt.mp hinvalid]
      obtain ⟨u, hu, -, -, hstore, -⟩ := exec_invalidLeaves hinvalid
      obtain rfl : u = t := by simpa [hu] using h
      exact hstore
  · rcases exec_carry_eq_or_adc_or_sbc h with hkept | ⟨rd, ra, o, rfl | rfl⟩
    · exact hkept
    · exact absurd rfl hadc
    · exact absurd rfl hsbc
  · obtain ⟨u, hu, hother⟩ := exec_withCarry hadc hsbc s c
    obtain rfl : u = t := by simpa [hu] using h
    exact hother

end Sys2Proof.Machine
end

section
/-!
PROOFS. The statements about the cycle (44_cycle.md): the advance, the guard and the single-shot clear (R172 to R174),
the end of the run (R171, R173, R184), the parked cycle (R178), and the step that runs the fetched instruction (R175,
R176, R179, R180).

The plan: the beginning of a cycle is one record update (`State.beginCycle_eq`), and a step has one equation for each
of the ways a cycle goes (`step_enters_halted`, `step_of_not_windowFits`, `step_of_windowFits` with the branches of
`evaluate`). Each statement is a use of one of these; that the step runs the instruction at the fetch address also
needs that the window the cycle fetches is the four bytes there.
-/

namespace Sys2Proof.Machine

open Sys2Proof

/-! ### The beginning of a cycle (R172 to R174) -/

/-- The guard touches F.HALT only, and never clears it (R173). -/
theorem State.guardEnd_eq (s : State) : s.guardEnd = { s with halt := s.halt || s.pastEnd } := by
  unfold State.guardEnd
  split
  · next h => simp [h, State.markHalt]
  · next h => simp [h]

/-- The clear passes F.STORE_REG over in the sticky mode (R29, R174). -/
theorem State.clearSingleShot_eq (s : State) :
    s.clearSingleShot = { s with
      pcHalt   := false
      pcDouble := false
      storeReg := s.storeReg && decide (s.params.storeRegMode = .sticky) } := by
  cases h : s.params.storeRegMode with
  | sticky => simp [State.clearSingleShot, h]
  | strict => simp [State.clearSingleShot, h]

theorem State.beginCycle_eq (s : State) :
    s.beginCycle = { s with
      pc       := s.advancedPc
      pcHalt   := false
      pcDouble := false
      storeReg := s.storeReg && decide (s.params.storeRegMode = .sticky)
      halt     := s.halt || decide (Config.memSize < s.advancedPc.toNat + 4) } := by
  rw [State.beginCycle, State.clearSingleShot_eq, State.guardEnd_eq]
  rfl

/-- A window past the end of memory sets F.HALT (R173). -/
theorem State.beginCycle_halt_of_not_windowFits {s : State} (h : ¬ s.windowFits) : s.beginCycle.halt = true := by
  rw [← Bool.not_eq_false, s.beginCycle_halt_eq_false_iff]
  exact fun hclear => h hclear.2

/-- Of the registers the beginning of a cycle moves PC only. -/
theorem State.beginCycle_readReg_of_ne_pc (s : State) {r : Reg} (h : r ≠ .pc) :
    s.beginCycle.readReg r = s.readReg r := by
  rw [s.beginCycle_eq]
  cases r with
  | pc => exact absurd rfl h
  | _ => rfl

theorem State.advancedPc_eq (s : State) :
    s.advancedPc = if s.pcHalt then s.pc else if s.pcDouble then s.pc + 4 else s.pc + 2 := by
  cases h : s.pcDouble <;> simp [State.advancedPc, h]

/-! ### The ways a step goes (R171, R173, R176) -/

/-- The halting cycle (R171). -/
theorem step_enters_halted {s : State} (hrun : s.runState = .running) (hhalt : s.halt = true) :
    step s = .next { s.acceptRequests with runState := .halted } := by
  simp [step, runLoop, cycle, hrun, hhalt]

/-- The cycle that ends at the guard (R173, D6). -/
theorem step_of_not_windowFits {s : State} (hlive : s.live) (h : ¬ s.windowFits) :
    step s = .next s.acceptRequests.beginCycle := by
  obtain ⟨hrun, hhalt⟩ := hlive
  have hguard : s.acceptRequests.beginCycle.halt = true :=
    State.beginCycle_halt_of_not_windowFits (by rwa [State.windowFits, State.acceptRequests_advancedPc])
  simp [step, runLoop, cycle, hrun, hhalt, hguard]

/-- The cycle that reaches the evaluator (R176). -/
theorem step_of_windowFits {s : State} (hlive : s.live) (h : s.windowFits) :
    step s = evaluate s.acceptRequests.beginCycle := by
  obtain ⟨hrun, hhalt⟩ := hlive
  have hguard : s.acceptRequests.beginCycle.halt = false := by
    rw [State.beginCycle_halt_eq_false_iff, State.acceptRequests_advancedPc, State.acceptRequests_halt]
    exact ⟨hhalt, h⟩
  simp [step, runLoop, cycle, hrun, hhalt, hguard]

/-! ### The evaluator (R177 to R180) -/

theorem State.interrupted_eq_false_iff (s : State) : s.interrupted = false ↔ s.mask &&& s.pending = 0 := by
  simp [State.interrupted]

/-- The beginning of a cycle neither masks nor requests an interrupt. -/
@[simp] theorem State.beginCycle_interrupted (s : State) : s.beginCycle.interrupted = s.interrupted := by
  simp [State.interrupted]

theorem evaluate_of_wfi {s : State} (hint : s.interrupted = false) (hwfi : s.wfi = true) :
    evaluate s = .next s.park := by
  simp [evaluate, hint, hwfi]

theorem evaluate_of_not_wfi {s : State} (hint : s.interrupted = false) (hwfi : s.wfi = false) :
    evaluate s = exec s.fetched (s.noteDecoded s.fetched) := by
  simp [evaluate, hint, hwfi]

theorem State.park_advance {s : State} (h : s.params.wfiMode = .advance) : s.park = s := by
  simp [State.park, h]

theorem State.park_freeze {s : State} (h : s.params.wfiMode = .freeze) : s.park = { s with pcHalt := true } := by
  simp [State.park, h]

/-! ### The fetched window (30_encoding.md R71, R73; 44_cycle.md R175) -/

/-- Outside mode 10 the second halfword is not read (30_encoding.md R73). -/
theorem decodeWindow_of_mode_ne_two {hi : Halfword} (h : modeField hi ≠ 2#2) (lo lo' : Halfword) :
    decodeWindow hi lo = decodeWindow hi lo' := by
  have hoperand : decodeOperand2 (modeField hi) (rbField hi) lo = decodeOperand2 (modeField hi) (rbField hi) lo' := by
    obtain hmode | hmode | hmode | hmode := mode_cases (modeField hi)
    · simp [hmode]
    · simp [hmode]
    · exact absurd hmode h
    · simp [hmode]
  rw [decodeWindow, decodeWindow, hoperand]

/-- An access further on reads the later bytes of the access that begins before it. -/
theorem Memory.readFrom_add (m : Memory) (a j k n : Nat) :
    Memory.readFrom m (a + j) k n = Memory.readFrom m a (j + k) n := by
  induction n generalizing k with
  | zero => rfl
  | succ n ih => rw [Memory.readFrom, Memory.readFrom, ih, byteAddr, byteAddr, Nat.add_assoc, Nat.add_assoc]

/-- The window the core fetches is the instruction that the decoder reads from the four bytes at PC. -/
theorem State.fetched_of_decode {s : State} {i : Instr} {rest : List Byte} (hpc : s.pc.toNat + 2 < 2 ^ 32)
    (h : decode s.params.byteOrder (Memory.readFrom s.mem s.pc.toNat 0 4) = .ok i rest) : s.fetched = i := by
  have hnext : (s.pc + 2).toNat = s.pc.toNat + 2 := by bv_omega
  have hhi : s.fetchHi = halfword s.params.byteOrder (Memory.readByte s.mem (byteAddr s.pc.toNat 0))
      (Memory.readByte s.mem (byteAddr s.pc.toNat 1)) := rfl
  have hlo : s.fetchLo = halfword s.params.byteOrder (Memory.readByte s.mem (byteAddr s.pc.toNat 2))
      (Memory.readByte s.mem (byteAddr s.pc.toNat 3)) := by
    rw [State.fetchLo, State.memValue, hnext, Memory.readFrom_add]
    rfl
  simp only [Memory.readFrom, Nat.zero_add, Nat.reduceAdd, decode, ← hhi, ← hlo] at h
  split at h
  · cases h
    rfl
  · next hmode =>
    cases h
    exact decodeWindow_of_mode_ne_two hmode _ _

/-! ### The statements -/

/-- Settles O41: the cycle ends at the guard with F.HALT set, and the next one is the halting cycle. -/
theorem endOfMemoryHalts : Obligations.EndOfMemoryHalts := by
  unfold Obligations.EndOfMemoryHalts
  intro s hlive habsent hend
  have hstep : step s = .next s.beginCycle := by
    rw [step_of_not_windowFits hlive hend, s.acceptRequests_absent habsent]
  obtain ⟨hpc, hpcHalt, hpcDouble, -, hmem, hparams, -, hmask, hpending, -, hrun⟩ := s.beginCycle_fields
  have hrun : s.beginCycle.runState = .running := hrun.trans hlive.1
  have hhalt : s.beginCycle.halt = true := State.beginCycle_halt_of_not_windowFits hend
  refine ⟨s.beginCycle, hstep, hhalt, hpc, hmem, fun r hr => s.beginCycle_readReg_of_ne_pc hr, hrun, hpcHalt,
    hpcDouble, s.beginCycle_carry, hmask, hpending, ?_⟩
  rw [step_enters_halted hrun hhalt, State.acceptRequests_absent _ (by rw [hparams, habsent])]

/-- Settles O58: the invariant bounds the PC that is advanced by 0xFFFC, and an advance is at most 4. -/
theorem advanceNeverWraps : Obligations.AdvanceNeverWraps := by
  unfold Obligations.AdvanceNeverWraps
  intro s hinv ⟨hrun, hhalt⟩ hpcHalt
  have hpc : s.pc.toNat ≤ 0xFFFC := hinv.pcWindow hrun hhalt hpcHalt
  rw [s.advancedPc_eq, hpcHalt, if_neg Bool.false_ne_true]
  split
  · bv_omega
  · bv_omega

/-- Settles O37: the cycle reaches the evaluator, no gate takes it, and the fetched instruction is the decoded one. -/
theorem stepRunsTheDecodedInstruction : Obligations.StepRunsTheDecodedInstruction := by
  unfold Obligations.StepRunsTheDecodedInstruction
  intro s i rest hlive hfits hquiet hwfi _ hdecode
  obtain ⟨hpc, -, -, -, hmem, hparams, -⟩ := s.acceptRequests.beginCycle_fields
  have hfetched : s.acceptRequests.beginCycle.fetched = i := by
    refine State.fetched_of_decode (rest := rest) ?_ ?_
    · simp only [State.windowFits, Config.memSize] at hfits
      rw [hpc, State.acceptRequests_advancedPc]
      omega
    · rw [hpc, hmem, hparams]
      simpa using hdecode
  rw [step_of_windowFits hlive hfits, evaluate_of_not_wfi, hfetched]
  · rwa [State.beginCycle_interrupted, State.interrupted_eq_false_iff]
  · simpa using hwfi

/-- Settles O38, from the beginning of a cycle as one update. -/
theorem beginningOfACycle : Obligations.BeginningOfACycle := by
  unfold Obligations.BeginningOfACycle
  intro s
  rw [s.beginCycle_eq]
  exact ⟨s.advancedPc_eq, rfl, rfl, rfl, rfl, rfl⟩

/-- Settles O39. -/
theorem haltFlagStopsTheRun : Obligations.HaltFlagStopsTheRun := by
  unfold Obligations.HaltFlagStopsTheRun
  intro s hrun hhalt
  refine ⟨step_enters_halted hrun hhalt, fun habsent => ?_⟩
  rw [step_enters_halted hrun hhalt, s.acceptRequests_absent habsent]

/-- Settles O42: the cycle reaches the evaluator and stops at the WFI gate. -/
theorem parkedCycleExecutesNothing : Obligations.ParkedCycleExecutesNothing := by
  unfold Obligations.ParkedCycleExecutesNothing
  intro s hlive hfits hwfi hquiet
  have hpark : step s = .next s.acceptRequests.beginCycle.park := by
    rw [step_of_windowFits hlive hfits, evaluate_of_wfi]
    · rwa [State.beginCycle_interrupted, State.interrupted_eq_false_iff]
    · simpa using hwfi
  refine ⟨fun hmode => ?_, fun hmode => ?_⟩
  · rw [hpark, State.park_advance (by simpa using hmode)]
  · rw [hpark, State.park_freeze (by simpa using hmode)]

end Sys2Proof.Machine
end

section
/-!
PROOFS. The statements about faults, interrupts and dispatch (60_exceptions.md): the interrupt check (R194), dispatch
(R196), the fault that is taken in the next cycle (R192, R197), external requests (R198), the software return (R199),
the endless dispatch (R200), P as a register that no instruction reads (R201), and the wait that nothing ends (R203).

The plan: a step has one more equation, `step_of_interrupted`, and a dispatch whose push is allowed is described
register by register. The statements about runs package their induction once (`exists_run_of_steps`) over a predicate
that a step keeps: `Dispatched` for the endless dispatch, `Waits` for the two waits. That P is not read is
`exec_withPending`, on the pattern of `exec_withCarry`.
-/

namespace Sys2Proof.Machine

open Sys2Proof

/-! ### The beginning of a cycle, field by field (44_cycle.md R172 to R174) -/

@[simp] theorem State.beginCycle_pc (s : State) : s.beginCycle.pc = s.advancedPc := by
  rw [s.beginCycle_eq]

@[simp] theorem State.beginCycle_pcHalt (s : State) : s.beginCycle.pcHalt = false := by
  rw [s.beginCycle_eq]

@[simp] theorem State.beginCycle_pcDouble (s : State) : s.beginCycle.pcDouble = false := by
  rw [s.beginCycle_eq]

@[simp] theorem State.beginCycle_sp (s : State) : s.beginCycle.sp = s.sp := by
  rw [s.beginCycle_eq]

@[simp] theorem State.beginCycle_mem (s : State) : s.beginCycle.mem = s.mem := by
  rw [s.beginCycle_eq]

@[simp] theorem State.beginCycle_runState (s : State) : s.beginCycle.runState = s.runState := by
  rw [s.beginCycle_eq]

theorem State.beginCycle_halt_of_windowFits {s : State} (hhalt : s.halt = false) (h : s.windowFits) :
    s.beginCycle.halt = false :=
  s.beginCycle_halt_eq_false_iff.mpr ⟨hhalt, h⟩

/-! ### A step while the core runs (60_exceptions.md R194, R198) -/

/-- The requests of this cycle come first (R198). -/
theorem step_of_running {s : State} (h : s.runState = .running) : step s = cycle s.acceptRequests := by
  simp [step, runLoop, h]

/-- An enabled line that is pending is dispatched, parked or not (R194). -/
theorem step_of_interrupted {s : State} (hlive : s.live) (hfits : s.windowFits)
    (hint : s.acceptRequests.mask &&& s.acceptRequests.pending ≠ 0) :
    step s = .next s.acceptRequests.beginCycle.dispatch := by
  have hint : s.acceptRequests.beginCycle.interrupted = true := by simpa [State.interrupted] using hint
  rw [step_of_windowFits hlive hfits, evaluate, if_pos hint]

section
variable {s : State} (hlive : s.live) (hfits : s.windowFits) (habsent : s.params.extIrq = .absent)
include hlive hfits habsent

/-- The dispatching cycle with no external requester. -/
theorem step_dispatches (hpending : s.mask &&& s.pending ≠ 0) : step s = .next s.beginCycle.dispatch := by
  have hrequests := s.acceptRequests_absent habsent
  have hstep := step_of_interrupted hlive hfits (by rwa [hrequests])
  rwa [hrequests] at hstep

/-- The parked cycle with no external requester (44_cycle.md R178). -/
theorem step_parks (hquiet : s.mask &&& s.pending = 0) (hwfi : s.wfi = true) :
    step s = .next s.beginCycle.park := by
  rw [step_of_windowFits hlive hfits, s.acceptRequests_absent habsent, evaluate_of_wfi]
  · rwa [State.beginCycle_interrupted, State.interrupted_eq_false_iff]
  · rwa [State.beginCycle_wfi]

/-- The executing cycle with no external requester (44_cycle.md R179, R180). -/
theorem step_executes (hquiet : s.mask &&& s.pending = 0) (hwfi : s.wfi = false) :
    step s = exec s.beginCycle.fetched (s.beginCycle.noteDecoded s.beginCycle.fetched) := by
  rw [step_of_windowFits hlive hfits, s.acceptRequests_absent habsent, evaluate_of_not_wfi]
  · rwa [State.beginCycle_interrupted, State.interrupted_eq_false_iff]
  · rwa [State.beginCycle_wfi]

end

/-! ### A dispatch whose push is allowed (60_exceptions.md R196) -/

/-- IRQ_VECTOR is an address of memory, so it is the same number as a word. -/
theorem State.handlerEntry_toNat (s : State) : s.handlerEntry.toNat = s.params.irqVector.val := by
  have hlt : s.params.irqVector.val < 65533 := s.params.irqVector.isLt
  rw [State.handlerEntry, BitVec.toNat_ofNat]
  omega

theorem State.dispatchSp_decrement {s : State} (h : s.params.dispatchSpMode = .decrement) :
    s.dispatchSp = s.sp - 4 := by
  simp [State.dispatchSp, h]

theorem State.dispatchSp_increment {s : State} (h : s.params.dispatchSpMode = .increment) :
    s.dispatchSp = s.sp + 4 := by
  simp [State.dispatchSp, h]

section
variable {s : State} (h : s.accessAllowed s.sp 4 = true)
include h

theorem State.dispatch_mem : s.dispatch.mem = (s.memStore s.sp 4 s.pc).mem := by
  rw [s.dispatch_allowed h]
  rfl

theorem State.dispatch_sp : s.dispatch.sp = s.dispatchSp := by
  rw [s.dispatch_allowed h]
  rfl

theorem State.dispatch_pc : s.dispatch.pc = s.handlerEntry := by
  rw [s.dispatch_allowed h]
  rfl

theorem State.dispatch_pcHalt : s.dispatch.pcHalt = true := by
  rw [s.dispatch_allowed h]
  rfl

theorem State.dispatch_readReg {r : Reg} (hsp : r ≠ .sp) (hpc : r ≠ .pc) :
    s.dispatch.readReg r = s.readReg r := by
  rw [s.dispatch_allowed h]
  simp [hsp, hpc]

theorem State.dispatch_keepsMachine : KeepsMachine s s.dispatch := by
  rw [s.dispatch_allowed h]
  exact ⟨rfl, rfl, rfl, rfl⟩

/-- The window at the handler entry is in memory, by the range of IRQ_VECTOR. -/
theorem State.dispatch_windowFits : s.dispatch.windowFits := by
  have hlt : s.params.irqVector.val < 65533 := s.params.irqVector.isLt
  rw [State.windowFits, State.advancedPc_eq, if_pos (State.dispatch_pcHalt h), State.dispatch_pc h,
    State.handlerEntry_toNat, Config.memSize]
  omega

end

@[simp] theorem State.dispatch_pcDouble (s : State) : s.dispatch.pcDouble = s.pcDouble := by
  unfold State.dispatch; split <;> rfl

/-! ### The software return (60_exceptions.md R199) -/

/-- The PC of s is saved at the SP of s, and what the software return does not put back itself is as in s. -/
structure HoldsReturn (s u : State) : Prop where
  mem      : u.mem = (s.memStore s.sp 4 s.pc).mem
  regs     : ∀ r, r ≠ .sp → r ≠ .pc → u.readReg r = s.readReg r
  params   : u.params = s.params
  mask     : u.mask = s.mask
  pending  : u.pending = s.pending
  runState : u.runState = s.runState

theorem State.dispatch_holdsReturn {s : State} (h : s.accessAllowed s.sp 4 = true) : HoldsReturn s s.dispatch where
  mem      := State.dispatch_mem h
  regs _   := State.dispatch_readReg h
  params   := s.dispatch_params
  mask     := s.dispatch_mask
  pending  := s.dispatch_pending
  runState := (State.dispatch_keepsMachine h).runState

/-- ADC and SBC to R0 or SP leave the saved PC where it is. -/
theorem HoldsReturn.aluSum {s u : State} (h : HoldsReturn s u) (sum : Nat) {rd : Reg} (hrd : rd = .r0 ∨ rd = .sp)
    {o : Operand2} (ho : o.isInvalid = false) : HoldsReturn s (u.aluSum sum rd o) := by
  obtain ⟨hregs, -, hmem, hparams, hmask, hpending, hrun⟩ := u.aluSum_effect sum rd o ho
  refine ⟨hmem.trans h.mem, fun r hsp hpc => ?_, hparams.trans h.params, hmask.trans h.mask,
    hpending.trans h.pending, hrun.trans h.runState⟩
  rw [hregs, if_neg, h.regs r hsp hpc]
  rintro ⟨rfl, hr0⟩
  exact hrd.elim hr0 hsp

/-- CLC is ADC R0, R0, R0, whose sum is at most 1 (43_alu.md R140). -/
theorem HoldsReturn.clc {s u : State} (h : HoldsReturn s u) :
    ∃ t, exec (.adc .r0 .r0 (.reg .r0)) u = .next t ∧ HoldsReturn s t ∧ t.carry = false ∧ t.sp = u.sp := by
  obtain ⟨hregs, hcarry, -⟩ := u.aluSum_effect (adcSum 0 0 u.carry) .r0 (.reg .r0) rfl
  refine ⟨_, rfl, h.aluSum _ (.inl rfl) rfl, hcarry.trans ?_, hregs .sp⟩
  rw [sumCarry_adcSum]
  cases u.carry <;> rfl

/-- LDW PC, [SP] with the SP of s puts back the saved PC through the write port (41_memory_unit.md R103). -/
theorem HoldsReturn.ldw {s u : State} (h : HoldsReturn s u) (hsp : u.sp = s.sp)
    (hok : s.accessAllowed s.sp 4 = true) :
    ∃ v, exec (.ldw .pc .sp (.reg .r0)) u = .next v ∧ ReturnLeaves s v := by
  have hallowed : u.accessAllowed (u.operand1 .sp) 4 = true := by
    rwa [State.operand1, State.readReg_sp, hsp, State.accessAllowed, h.params]
  have hsaved : BitVec.ofNat 32 (u.readSum (u.operand1 .sp) 4) = s.pc := by
    have hread : u.memValue s.sp 4 = (s.memStore s.sp 4 s.pc).memValue s.sp 4 := by
      rw [State.memValue, State.memValue, h.mem, h.params, State.memStore_params]
    rw [State.operand1, State.readReg_sp, hsp, ← State.memValue_eq_readSum, hread,
      State.memStore_memValue _ _ _ (by decide), Nat.mod_eq_of_lt s.pc.isLt, BitVec.ofNat_toNat, BitVec.setWidth_eq]
  obtain ⟨heffect, -, -⟩ := State.loadResult_effect .pc (.reg .r0) hallowed
  rw [hsaved] at heffect
  refine ⟨_, rfl, fun r => ?_, by simp [heffect.pcHalt], heffect.storeReg, heffect.flow.mask.trans h.mask,
    heffect.flow.pending.trans h.pending, heffect.machine.runState.trans h.runState⟩
  rw [heffect.regs]
  by_cases hpc : r = .pc
  · simp [hpc]
  by_cases hr : r = .sp
  · simp [hr, hsp]
  · simp [hpc, h.regs r hr hpc]

/-- The last two instructions of the return: a wide sum that is the SP of s, and the load at it. -/
theorem HoldsReturn.returns {s t : State} (h : HoldsReturn s t) (hok : s.accessAllowed s.sp 4 = true) {i : Instr}
    {sum : Nat} {o : Operand2} (ho : o.isInvalid = false) (hi : exec i t = .next (t.aluSum sum .sp o))
    (hsum : sumResult sum = s.sp) :
    ∃ u v, exec i t = .next u ∧ exec (.ldw .pc .sp (.reg .r0)) u = .next v ∧ ReturnLeaves s v := by
  obtain ⟨hregs, -⟩ := t.aluSum_effect sum .sp o ho
  obtain ⟨v, hv, hreturn⟩ := (h.aluSum sum (.inr rfl) ho).ldw ((hregs .sp).trans hsum) hok
  exact ⟨_, v, hi, hv, hreturn⟩

/-! ### A fault and the cycle after it (60_exceptions.md R190, R192) -/

/-- M after an instruction, but for the bit that MSKW writes (42_flow_control.md R122). -/
theorem exec_mask_getLsbD {i : Instr} {s t : State} {k : Nat} (h : exec i s = .next t) (hk : k < 16)
    (hmskw : (instrFields i).op = 10#5 → (s.readReg (instrFields i).ra).toNat ≠ k) :
    t.mask.getLsbD k = s.mask.getLsbD k := by
  rcases exec_mask_eq_or_mskw h with hkeep | ⟨rd, ra, o, rfl⟩
  · rw [hkeep]
  · rw [exec_mskw_eq] at h
    cases h
    rw [State.finishNoResult_mask, State.withMask_mask, getLsbD_writeLine _ _ _ _ hk]
    exact if_neg (hmskw rfl)

/-- An instruction that raises IFAULT leaves P[0] set, unless it is a PNDW that writes this bit (R190). -/
theorem exec_pending_of_raisesFault {i : Instr} {s t : State} (h : exec i s = .next t)
    (hfault : raisesFault s.params i = true)
    (hpndw : (instrFields i).op = 12#5 → (s.readReg (instrFields i).ra).toNat ≠ 0) :
    t.pending.getLsbD 0 = true := by
  rw [exec_pending_getLsbD h (by decide) hpndw, if_pos hfault]
  simp

/-- One line that is set in M and in P is enough for the interrupt check (R195). -/
theorem and_ne_zero_of_getLsbD {m p : Lines} {k : Nat} (hm : m.getLsbD k = true) (hp : p.getLsbD k = true) :
    m &&& p ≠ 0 := by
  intro hzero
  have hbit : (m &&& p).getLsbD k = true := by rw [BitVec.getLsbD_and, hm, hp]; rfl
  simp [hzero] at hbit

/-! ### P carried through the operations over the state (60_exceptions.md R201) -/

section
variable (s : State) (p : Lines)

@[simp] theorem State.withPending_withPending (q : Lines) : (s.withPending p).withPending q = s.withPending q := rfl

@[simp] theorem State.withPending_operand1 (ra : Reg) : (s.withPending p).operand1 ra = s.operand1 ra :=
  s.withPending_readReg p ra

@[simp] theorem State.withPending_operand2 (o : Operand2) : (s.withPending p).operand2 o = s.operand2 o := by
  cases o with
  | reg rb => exact s.withPending_readReg p rb
  | short n | long rb n | invalid rb => rfl

/-- The decoder's fault is the one effect on P that depends on P. -/
@[simp] theorem State.withPending_afterDecode (o : Operand2) :
    (s.withPending p).afterDecode o = (s.afterDecode o).withPending (decodedPending (s.withPending p) o) := by
  cases o <;> rfl

@[simp] theorem State.withPending_writePort (rd : Reg) (v : Word) :
    (s.withPending p).writePort rd v = (s.writePort rd v).withPending p := by
  cases rd <;> rfl

@[simp] theorem State.withPending_writeback (rd : Reg) (v : Word) :
    (s.withPending p).writeback rd v = (s.writeback rd v).withPending p := by
  unfold State.writeback
  rw [apply_ite (State.withPending · p), State.withPending_writePort]
  rfl

@[simp] theorem State.withPending_finishResult (rd : Reg) (v : Word) :
    (s.withPending p).finishResult rd v = (s.finishResult rd v).withPending p :=
  s.markResult.withPending_writeback p rd v

@[simp] theorem State.withPending_finishNoResult (rd : Reg) :
    (s.withPending p).finishNoResult rd = (s.finishNoResult rd).withPending p :=
  s.drawn.withPending_writeback p rd s.freeValue

@[simp] theorem State.withPending_writeCarry (o : Operand2) (c : Bool) :
    (s.withPending p).writeCarry o c = (s.writeCarry o c).withPending p := by
  cases o <;> rfl

@[simp] theorem State.withPending_accessAllowed (a : Word) (n : Nat) :
    (s.withPending p).accessAllowed a n = s.accessAllowed a n := rfl

@[simp] theorem State.withPending_memValue (a : Word) (n : Nat) :
    (s.withPending p).memValue a n = s.memValue a n := rfl

@[simp] theorem State.withPending_memStore (a : Word) (n : Nat) (v : Word) :
    (s.withPending p).memStore a n v = (s.memStore a n v).withPending p := rfl

@[simp] theorem State.withPending_stopMemFault :
    (s.withPending p).stopMemFault = s.stopMemFault.withPending p := rfl

@[simp] theorem State.withPending_withSp (v : Word) : (s.withPending p).withSp v = (s.withSp v).withPending p := rfl

@[simp] theorem State.withPending_jumpTo (v : Word) : (s.withPending p).jumpTo v = (s.jumpTo v).withPending p := rfl

@[simp] theorem State.withPending_withWfi (b : Bool) :
    (s.withPending p).withWfi b = (s.withWfi b).withPending p := rfl

@[simp] theorem State.withPending_markHalt : (s.withPending p).markHalt = s.markHalt.withPending p := rfl

@[simp] theorem State.withPending_withMask (m : Lines) :
    (s.withPending p).withMask m = (s.withMask m).withPending p := rfl

@[simp] theorem State.withPending_raiseIfault :
    (s.withPending p).raiseIfault = s.raiseIfault.withPending (p ||| 0x0001#16) := rfl

/-- P is carried out of a choice whose condition does not read it. -/
theorem State.withPending_ite (P : Prop) [Decidable P] (t : State) :
    (if P then s.withPending p else t.withPending p) = (if P then s else t).withPending p :=
  (apply_ite (State.withPending · p) P s t).symm

theorem State.withPending_aluResult (f : Word → Word → Word) (rd ra : Reg) (o : Operand2) :
    (s.withPending p).aluResult f rd ra o =
      (s.aluResult f rd ra o).withPending (decodedPending (s.withPending p) o) := by
  simp [State.aluResult]

theorem State.withPending_aluSum (sum : Nat) (rd : Reg) (o : Operand2) :
    (s.withPending p).aluSum sum rd o = (s.aluSum sum rd o).withPending (decodedPending (s.withPending p) o) := by
  simp [State.aluSum]

theorem State.withPending_loadResult (n : Nat) (rd ra : Reg) (o : Operand2) :
    (s.withPending p).loadResult n rd ra o =
      (s.loadResult n rd ra o).withPending (decodedPending (s.withPending p) o) := by
  simp [State.loadResult, State.withPending_ite]

theorem State.withPending_storeValue (n : Nat) (rd ra : Reg) (o : Operand2) :
    (s.withPending p).storeValue n rd ra o =
      (s.storeValue n rd ra o).withPending (decodedPending (s.withPending p) o) := by
  simp [State.storeValue, State.withPending_ite]

end

/-- The fault path reads P only to set its bit 0 (43_alu.md R156). -/
theorem exec_withPending_of_invalidOpcode {i : Instr} {s : State} (h : invalidOpcode s.params i = true) (p : Lines) :
    ∃ t q, exec i s = .next t ∧ exec i (s.withPending p) = .next (t.withPending q) := by
  refine ⟨_, decodedPending (s.withPending p) (instrFields i).o ||| 0x0001#16, exec_of_invalidOpcode h, ?_⟩
  rw [exec_of_invalidOpcode (s := s.withPending p) h]
  simp [decoded]

/-- With OP_0D_MODE = read_mask an instruction does the same under another P, but for what it leaves in P (R201). -/
theorem exec_withPending {s : State} (hmode : s.params.op0dMode = .readMask) (i : Instr) (p : Lines) :
    ∃ t q, exec i s = .next t ∧ exec i (s.withPending p) = .next (t.withPending q) := by
  cases i with
  | ldb rd ra o | ldh rd ra o | ldw rd ra o =>
    exact ⟨_, _, rfl, congrArg Host.Outcome.next (s.withPending_loadResult p _ rd ra o)⟩
  | stb rd ra o | sth rd ra o | stw rd ra o =>
    exact ⟨_, _, rfl, congrArg Host.Outcome.next (s.withPending_storeValue p _ rd ra o)⟩
  | adc rd ra o | sbc rd ra o =>
    exact ⟨_, decodedPending (s.withPending p) o, rfl,
      congrArg Host.Outcome.next (by simp [State.withPending_aluSum])⟩
  | cmp rd ra o | land rd ra o | lor rd ra o | lnot rd ra o | lsr rd ra o | lsl rd ra o | asr rd ra o
  | ror rd ra o => exact ⟨_, _, rfl, congrArg Host.Outcome.next (s.withPending_aluResult p _ rd ra o)⟩
  | push rd ra o | pop rd ra o | bnz rd ra o =>
    exact ⟨_, decodedPending (s.withPending p) o, rfl,
      congrArg Host.Outcome.next (by simp [State.withPending_ite])⟩
  | wfi rd ra o | mskw rd ra o | mskr rd ra o | halt rd ra o =>
    exact ⟨_, decodedPending (s.withPending p) o, rfl, congrArg Host.Outcome.next (by simp)⟩
  | pndw rd ra o =>
    refine ⟨_, writeLine (decodedPending (s.withPending p) o) (s.readReg ra) (decide (s.operand2 o ≠ 0)),
      exec_pndw_eq rd ra o s, ?_⟩
    rw [exec_pndw_eq]
    simp
  | pndr rd ra o =>
    refine ⟨_, decodedPending (s.withPending p) o, exec_pndr_readMask rd ra o hmode, ?_⟩
    rw [exec_pndr_readMask (s := s.withPending p) rd ra o hmode]
    simp
  | invalid0f rd ra o =>
    cases h0f : s.params.op0fMode with
    | flowNop =>
      refine ⟨_, decodedPending (s.withPending p) o, exec_invalid0f_flowNop rd ra o h0f, ?_⟩
      rw [exec_invalid0f_flowNop (s := s.withPending p) rd ra o h0f]
      simp
    | aluFault =>
      exact exec_withPending_of_invalidOpcode (i := .invalid0f rd ra o) (by simp [invalidOpcode, instrFields, h0f]) p
  | invalid1a rd ra o | invalid1b rd ra o | invalid1c rd ra o | invalid1d rd ra o | invalid1e rd ra o
  | invalid1f rd ra o => exact exec_withPending_of_invalidOpcode rfl p

/-! ### Runs by what every step keeps -/

/-- A predicate that holds at the start and goes from one step to the next, N times, holds along the run. -/
theorem exists_run_of_steps {P : Nat → State → Prop} {s : State} {N : Nat} (hstart : P 0 s)
    (hstep : ∀ n t, n < N → P n t → ∃ u, step t = .next u ∧ P (n + 1) u) :
    ∀ n ≤ N, ∃ t : State, Host.Core.run Sys2Proof.core n s = .next t ∧ P n t := by
  intro n
  induction n with
  | zero => exact fun _ => ⟨s, rfl, hstart⟩
  | succ n ih =>
    intro hn
    obtain ⟨t, hrun, ht⟩ := ih (by omega)
    obtain ⟨u, hu, hPu⟩ := hstep n t (by omega) ht
    exact ⟨u, (run_succ hrun).trans hu, hPu⟩

/-! ### The endless dispatch (60_exceptions.md R200) -/

/-- The state t that n dispatches in a row have left of s, DISPATCH_SP_MODE = decrement. -/
structure Dispatched (s : State) (n : Nat) (t : State) : Prop where
  live    : t.live
  fits    : t.windowFits
  params  : t.params = s.params
  mask    : t.mask = s.mask
  pending : t.pending = s.pending
  sp      : t.sp = s.sp - BitVec.ofNat 32 (4 * n)

section
variable {s t : State} {n : Nat} (h : Dispatched s n t) (habsent : s.params.extIrq = .absent)
  (hpending : s.mask &&& s.pending ≠ 0)
include h habsent hpending

/-- M and P are as at the first dispatch, so the next cycle dispatches too (R194, R195). -/
theorem Dispatched.step_eq : step t = .next t.beginCycle.dispatch :=
  step_dispatches h.live h.fits (by rw [h.params, habsent]) (by rwa [h.mask, h.pending])

/-- A dispatch with room for its push moves SP down by 4 and keeps the rest of what the next one needs. -/
theorem Dispatched.exists_next (hmode : s.params.dispatchSpMode = .decrement) (hfits : s.sp.toNat ≤ 0xFFFC)
    (hroom : n ≤ s.sp.toNat / 4) :
    ∃ u, step t = .next u ∧ Dispatched s (n + 1) u ∧ u.pc.toNat = s.params.irqVector.val := by
  have hok : t.beginCycle.accessAllowed t.beginCycle.sp 4 = true := by
    refine State.accessAllowed_of_le ?_
    rw [State.beginCycle_sp, h.sp, Config.memSize]
    bv_omega
  refine ⟨_, h.step_eq habsent hpending, ⟨⟨?_, ?_⟩, State.dispatch_windowFits hok, ?_, ?_, ?_, ?_⟩, ?_⟩
  · simp [(State.dispatch_keepsMachine hok).runState, h.live.1]
  · rw [State.dispatch_halt, State.beginCycle_halt_of_windowFits h.live.2 h.fits]
  · simp [h.params]
  · simp [h.mask]
  · simp [h.pending]
  · rw [State.dispatch_sp hok, State.dispatchSp_decrement (by simp [h.params, hmode]), State.beginCycle_sp, h.sp]
    bv_omega
  · simp [State.dispatch_pc hok, State.handlerEntry_toNat, h.params]

/-- After floor(S/4) + 1 dispatches SP has wrapped, and the push is out of range (20_memory.md R55). -/
theorem Dispatched.step_stops (hn : n = s.sp.toNat / 4 + 1) (hpolicy : s.params.oobPolicy = .stop) :
    step t = .next t.beginCycle.stopMemFault ∧ t.sp = BitVec.ofNat 32 (0xFFFFFFFC + s.sp.toNat % 4) := by
  have hsp : t.sp = BitVec.ofNat 32 (0xFFFFFFFC + s.sp.toNat % 4) := by
    rw [h.sp, hn]
    bv_omega
  refine ⟨?_, hsp⟩
  rw [h.step_eq habsent hpending, State.dispatch_stops]
  rw [State.accessAllowed_eq_false_iff, State.beginCycle_sp, State.beginCycle_params, h.params, hsp]
  refine ⟨?_, hpolicy⟩
  rw [BitVec.toNat_ofNat, Config.memSize]
  omega

end

/-! ### The wait that nothing ends (60_exceptions.md R203) -/

/-- The state t of a core that has been parked since s. PC and the single-shot flags are not in it. -/
structure Waits (s t : State) : Prop where
  live    : t.live
  wfi     : t.wfi = true
  params  : t.params = s.params
  mask    : t.mask = s.mask
  pending : t.pending = s.pending
  mem     : t.mem = s.mem
  regs    : ∀ r, r ≠ .pc → t.readReg r = s.readReg r

/-- The start of the wait. -/
theorem Waits.of_parked {s : State} (hlive : s.live) (hwfi : s.wfi = true) : Waits s s :=
  ⟨hlive, hwfi, rfl, rfl, rfl, rfl, fun _ _ => rfl⟩

/-- The WFI gate writes no register (44_cycle.md R178). -/
@[simp] theorem State.park_readReg (s : State) (r : Reg) : s.park.readReg r = s.readReg r := by
  unfold State.park
  split
  · rfl
  · cases r <;> rfl

/-- A parked cycle executes nothing, and nothing ends the wait (R178). -/
theorem Waits.parks {s t : State} (h : Waits s t) (habsent : s.params.extIrq = .absent)
    (hquiet : s.mask &&& s.pending = 0) (hfits : t.windowFits) :
    step t = .next t.beginCycle.park ∧ Waits s t.beginCycle.park := by
  obtain ⟨hrun, hhalt⟩ := h.live
  refine ⟨step_parks h.live hfits (by rw [h.params, habsent]) (by rwa [h.mask, h.pending]) h.wfi,
    ⟨by simp [hrun], ?_⟩, by simp [h.wfi], by simp [h.params], by simp [h.mask], by simp [h.pending],
    by simp [h.mem], fun r hr => ?_⟩
  · rw [State.park_halt, State.beginCycle_halt_of_windowFits hhalt hfits]
  · rw [State.park_readReg, State.beginCycle_readReg_of_ne_pc _ hr, h.regs r hr]

/-- With WFI_MODE = advance the next cycle is 2 bytes further. -/
theorem State.park_advancedPc_advance {s : State} (h : s.params.wfiMode = .advance) :
    s.beginCycle.park.advancedPc = s.advancedPc + 2 := by
  rw [State.park_advance (by simpa using h)]
  simp [State.advancedPc_eq s.beginCycle]

/-- With WFI_MODE = freeze the next cycle is at the same address. -/
theorem State.park_advancedPc_freeze {s : State} (h : s.params.wfiMode = .freeze) :
    s.beginCycle.park.advancedPc = s.advancedPc := by
  rw [State.park_freeze (by simpa using h), State.advancedPc_eq]
  exact s.beginCycle_pc

/-- With WFI_MODE = advance, n cycles take the wait 2n bytes on, as long as every window is in memory. -/
theorem exists_run_of_advancingWait {s : State} (hlive : s.live) (habsent : s.params.extIrq = .absent)
    (hmode : s.params.wfiMode = .advance) (hwfi : s.wfi = true) (hquiet : s.mask &&& s.pending = 0) {n : Nat}
    (hn : s.advancedPc.toNat + 2 * n ≤ 0xFFFE) :
    ∃ t : State, Host.Core.run Sys2Proof.core n s = .next t ∧ Waits s t ∧
      t.advancedPc.toNat = s.advancedPc.toNat + 2 * n := by
  refine exists_run_of_steps (P := fun n t => Waits s t ∧ t.advancedPc.toNat = s.advancedPc.toNat + 2 * n)
    ⟨.of_parked hlive hwfi, rfl⟩ (fun k t hk ⟨hwaits, hpc⟩ => ?_) n le_rfl
  have hfits : t.windowFits := by
    rw [State.windowFits, Config.memSize]
    omega
  obtain ⟨hstep, hnext⟩ := hwaits.parks habsent hquiet hfits
  refine ⟨_, hstep, hnext, ?_⟩
  rw [State.park_advancedPc_advance (by rw [hwaits.params, hmode])]
  bv_omega

/-! ### The statements -/

/-- Settles O44: an allowed dispatch field by field, and the stop. -/
theorem dispatchSavesPcAndEntersHandler : Obligations.DispatchSavesPcAndEntersHandler := by
  unfold Obligations.DispatchSavesPcAndEntersHandler
  refine fun s => ⟨fun hok => ?_, s.dispatch_stops⟩
  obtain ⟨hstored, hkept⟩ := storedBytes_of_mem_eq (by decide) (State.dispatch_mem hok)
  have hentry : s.dispatch.pc.toNat = s.params.irqVector.val := by
    rw [State.dispatch_pc hok, State.handlerEntry_toNat]
  refine ⟨hstored, hkept, fun hmode => ?_, fun hmode => ?_, hentry, State.dispatch_pcHalt hok, by simp [hok],
    s.dispatch_mask, s.dispatch_pending, s.dispatch_carry, s.dispatch_storeReg, s.dispatch_halt, s.dispatch_pcDouble,
    fun _ => State.dispatch_readReg hok, State.dispatch_keepsMachine hok⟩
  · rw [State.dispatch_sp hok, State.dispatchSp_decrement hmode]
  · rw [State.dispatch_sp hok, State.dispatchSp_increment hmode]

/-- Settles O45: the step is the instruction's own, which leaves line 0 pending and enabled, so the next cycle
dispatches; the PC it saves is where the next fetch goes (O7). -/
theorem faultIsTakenNextCycle : Obligations.FaultIsTakenNextCycle := by
  unfold Obligations.FaultIsTakenNextCycle
  rintro s i hlive habsent hfits hwfi hquiet rfl hfault
  obtain ⟨t, hexec, -⟩ := exec_shape s.beginCycle.fetched (s.beginCycle.noteDecoded s.beginCycle.fetched)
  have hstep : step s = .next t := (step_executes hlive hfits habsent hquiet hwfi).trans hexec
  refine ⟨t, hstep, hexec, fun hindex => ?_⟩
  have hindex : (instrFields s.beginCycle.fetched).op = 10#5 ∨ (instrFields s.beginCycle.fetched).op = 12#5 →
      ((s.beginCycle.noteDecoded s.beginCycle.fetched).readReg (instrFields s.beginCycle.fetched).ra).toNat ≠ 0 := by
    intro hop hzero
    exact hindex hop (BitVec.eq_of_toNat_eq (by simpa using hzero))
  have hpending : t.pending.getLsbD 0 = true :=
    exec_pending_of_raisesFault hexec (by simpa using hfault) fun hop => hindex (.inr hop)
  refine ⟨hpending, fun hmask htlive htfits => ⟨?_, ?_⟩⟩
  · have htmask : t.mask.getLsbD 0 = true := by
      rw [exec_mask_getLsbD hexec (by decide) fun hop => hindex (.inl hop)]
      simpa using hmask
    exact step_dispatches htlive htfits (by rw [step_params hstep, habsent])
      (and_ne_zero_of_getLsbD htmask hpending)
  · rw [State.beginCycle_pc]
    cases hpcHalt : t.pcHalt with
    | true => simp [State.advancedPc_eq, hpcHalt]
    | false =>
      have hnext := nextFetchIsPastTheInstruction _ _ t (by simp) (by simp) hexec
        (by simp [htlive.1, hlive.1]) hpcHalt
      simpa using hnext

/-- Settles O46: CLC clears C, the wide sum of ADC or SBC is then the SP of before, and the load is at it. -/
theorem softwareReturnRestoresPcAndSp : Obligations.SoftwareReturnRestoresPcAndSp := by
  unfold Obligations.SoftwareReturnRestoresPcAndSp
  intro s hok
  obtain ⟨t, ht, hholds, hcarry, hsp⟩ := (State.dispatch_holdsReturn hok).clc
  rw [State.dispatch_sp hok] at hsp
  refine ⟨fun hmode => ?_, fun hmode => ?_⟩
  · have hsum : sumResult (adcSum (t.readReg .sp) (BitVec.ofInt 32 4) t.carry) = s.sp := by
      rw [sumResult_adcSum, hcarry, State.readReg_sp, hsp, State.dispatchSp_decrement hmode]
      simp
    obtain ⟨u, v, hu, hv, hreturn⟩ := hholds.returns hok (i := .adc .sp .sp (.long 0 4)) rfl rfl hsum
    exact ⟨t, u, v, ht, hu, hv, hreturn⟩
  · have hsum : sumResult (sbcSum (t.readReg .sp) (BitVec.ofInt 32 4) t.carry) = s.sp := by
      rw [sumResult_sbcSum, hcarry, State.readReg_sp, hsp, State.dispatchSp_increment hmode]
      simp
    obtain ⟨u, v, hu, hv, hreturn⟩ := hholds.returns hok (i := .sbc .sp .sp (.long 0 4)) rfl rfl hsum
    exact ⟨t, u, v, ht, hu, hv, hreturn⟩

/-- Settles O48, by induction on the number of dispatches; SP has wrapped when no multiple of 4 is left. -/
theorem endlessDispatchExhaustsTheStack : Obligations.EndlessDispatchExhaustsTheStack := by
  unfold Obligations.EndlessDispatchExhaustsTheStack
  intro s hlive hfits habsent hpolicy hmode hpending hsp
  have hruns := exists_run_of_steps (P := Dispatched s) (s := s) (N := s.sp.toNat / 4 + 1)
    ⟨hlive, hfits, rfl, rfl, rfl, by simp⟩ fun n t hn ht => by
      obtain ⟨u, hu, hnext, -⟩ := ht.exists_next habsent hpending hmode hsp (by omega)
      exact ⟨u, hu, hnext⟩
  constructor
  · intro k hk
    obtain ⟨t, hrun, ht⟩ := hruns k (by omega)
    obtain ⟨u, hu, ⟨⟨hurun, huhalt⟩, -, -, hmask, hpend, husp⟩, hpc⟩ :=
      ht.exists_next habsent hpending hmode hsp hk
    exact ⟨u, (run_succ hrun).trans hu, hurun, huhalt, hpc, husp, hmask, hpend⟩
  · obtain ⟨t, hrun, ht⟩ := hruns _ le_rfl
    obtain ⟨hstep, htsp⟩ := ht.step_stops habsent hpending rfl hpolicy
    exact ⟨t.beginCycle.stopMemFault, (run_succ hrun).trans hstep, rfl, by simpa using htsp⟩

/-- Settles O49: the wait moves 2 bytes a cycle, and the first window that does not fit ends the run (O41). -/
theorem advancingWaitRunsToTheEnd : Obligations.AdvancingWaitRunsToTheEnd := by
  unfold Obligations.AdvancingWaitRunsToTheEnd
  intro s hlive hfits habsent hmode hwfi hquiet
  simp only [State.windowFits, Config.memSize] at hfits
  constructor
  · intro k hk
    obtain ⟨t, hrun, hwaits, hpc⟩ :=
      exists_run_of_advancingWait hlive habsent hmode hwfi hquiet (n := k) (by omega)
    have htfits : t.windowFits := by
      rw [State.windowFits, Config.memSize]
      omega
    obtain ⟨hstep, ⟨hurun, huhalt⟩, huwfi, -, -, -, humem, huregs⟩ := hwaits.parks habsent hquiet htfits
    exact ⟨_, (run_succ hrun).trans hstep, by simpa using hpc, hurun, huhalt, huwfi, humem, huregs⟩
  · obtain ⟨t, hrun, hwaits, hpc⟩ := exists_run_of_advancingWait hlive habsent hmode hwfi hquiet
      (n := (0xFFFC - s.advancedPc.toNat) / 2 + 1) (by omega)
    have htfits : ¬ t.windowFits := by
      rw [State.windowFits, Config.memSize]
      omega
    obtain ⟨u, hu, -, hupc, -, -, -, -, -, -, -, -, hhalted⟩ :=
      endOfMemoryHalts t hwaits.live (by rw [hwaits.params, habsent]) htfits
    refine ⟨_, _, (run_succ ((run_succ hrun).trans hu)).trans hhalted, rfl, ?_⟩
    rw [hupc]
    omega

/-- Settles O50, by induction on the number of cycles: each leaves the core parked at the same address. -/
theorem frozenWaitNeverEnds : Obligations.FrozenWaitNeverEnds := by
  unfold Obligations.FrozenWaitNeverEnds
  intro s k hlive hfits habsent hmode hwfi hquiet
  obtain ⟨t, hrun, hwaits, hpc⟩ := exists_run_of_steps (P := fun _ t => Waits s t ∧ t.advancedPc = s.advancedPc)
    (s := s) ⟨.of_parked hlive hwfi, rfl⟩
    (fun n t _ ⟨hwaits, hpc⟩ => by
      obtain ⟨hstep, hnext⟩ := hwaits.parks habsent hquiet (by rwa [State.windowFits, hpc])
      refine ⟨_, hstep, hnext, ?_⟩
      rw [State.park_advancedPc_freeze (by rw [hwaits.params, hmode]), hpc]) k le_rfl
  obtain ⟨hstep, ⟨hurun, huhalt⟩, huwfi, -, -, -, humem, huregs⟩ :=
    hwaits.parks habsent hquiet (by rwa [State.windowFits, hpc])
  exact ⟨_, (run_succ hrun).trans hstep, by simpa using hpc, hurun, huhalt, huwfi, humem, huregs⟩

/-- Settles O55: the state under another P is `withPending` of s, and P is carried through every instruction. -/
theorem pendingIsUnreadable : Obligations.PendingIsUnreadable := by
  unfold Obligations.PendingIsUnreadable
  intro i s p hmode
  obtain ⟨t, q, ht, hother⟩ := exec_withPending hmode i p
  exact ⟨t, t.withPending q, ht, hother, rfl⟩

/-- Settles O43: the three ways a cycle can go are three equations of the step. -/
theorem interruptCheckComesFirst : Obligations.InterruptCheckComesFirst := by
  unfold Obligations.InterruptCheckComesFirst
  exact fun s hrun hint => ⟨fun hhalt hfits => step_of_interrupted ⟨hrun, hhalt⟩ hfits hint,
    step_enters_halted hrun, fun hhalt hfits => step_of_not_windowFits ⟨hrun, hhalt⟩ hfits⟩

/-- Settles O47: `acceptRequests` in its three cases. -/
theorem externalRequestsOnlySetBits : Obligations.ExternalRequestsOnlySetBits := by
  unfold Obligations.ExternalRequestsOnlySetBits
  intro s hrun
  rw [step_of_running hrun]
  refine ⟨fun habsent => ?_, fun hpresent hnone => ?_, fun r rs hpresent hsome => ?_⟩
  · rw [s.acceptRequests_absent habsent]
  · simp [State.acceptRequests, hpresent, hnone]
  · simp [State.acceptRequests, hpresent, hsome]

end Sys2Proof.Machine
end

section
/-!
PROOFS. The statement about the host's load (70_reset_and_hazards.md R222): an image that fits is one write of its
bytes from address 0, whose byte addresses do not wrap, and a longer one is refused.
-/

namespace Sys2Proof.Machine

open Sys2Proof

/-! ### The two answers of a load -/

theorem hostLoad_of_fits {image : List Byte} (s : State) (h : image.length ≤ Config.memSize) :
    hostLoad image s = .next { s with mem := Memory.writeFrom s.mem 0 0 image } :=
  if_pos h

theorem hostLoad_of_too_long {image : List Byte} (s : State) (h : Config.memSize < image.length) :
    hostLoad image s = .refused .imageTooLong :=
  if_neg (Nat.not_le.mpr h)

/-! ### The memory after a load -/

/-- Offset k from address 0 is address k: nothing wraps inside the memory. -/
theorem byteAddr_zero_of_lt {k : Nat} (h : k < Config.memSize) : byteAddr 0 (0 + k) = k := by
  rw [Nat.zero_add, byteAddr_of_lt 0 k (by omega), Nat.zero_add]

theorem Memory.readByte_image (m : Memory) {image : List Byte} (hfits : image.length ≤ Config.memSize)
    {k : Nat} (hk : k < image.length) :
    Memory.readByte (Memory.writeFrom m 0 0 image) k = image[k] := by
  have hread := Memory.readByte_writeFrom_inside m 0 0 image k hk (by omega)
  rwa [byteAddr_zero_of_lt (by omega)] at hread

theorem Memory.readByte_beyond_image (m : Memory) {image : List Byte} (hfits : image.length ≤ Config.memSize)
    {a : Nat} (ha : image.length ≤ a) :
    Memory.readByte (Memory.writeFrom m 0 0 image) a = Memory.readByte m a := by
  apply Memory.readByte_writeFrom_outside
  intro j hj
  rw [byteAddr_zero_of_lt (by omega)]
  omega

/-- Settles O60: the two answers of `hostLoad`, and the memory of the first read inside and beyond the image. -/
theorem loadPlacesTheImage : Obligations.LoadPlacesTheImage := by
  unfold Obligations.LoadPlacesTheImage
  intro image s
  constructor
  · intro hfits
    exact ⟨_, hostLoad_of_fits s hfits, rfl, fun _ hk => Memory.readByte_image s.mem hfits hk,
      fun _ ha => Memory.readByte_beyond_image s.mem hfits ha⟩
  · exact hostLoad_of_too_long s

end Sys2Proof.Machine
end
